-- ==== Sys2Proof/Word.lean ====
section
/-! DEFINITION. The word types of the engine (00_scope.md R9, R13) and their plainest arithmetic. -/

namespace Sys2Proof

/-- One byte: 8 bits (R13). -/
abbrev Byte := BitVec 8

/-- A flash address or a length as the host gives it and as the engine keeps it: the 32-bit container of R9 and R61. -/
abbrev Word := BitVec 32

/-- A flash address as the wire carries it: the 24 significant bits (R9, R61). -/
abbrev WireAddr := BitVec 24

end Sys2Proof
end

