-- ==== Sys2Proof/Config.lean ====
section
/-! DEFINITION. The free values of the environment, and the parameters of the block (00_scope.md R8 to R12). -/

namespace Sys2Proof

namespace Config

/-- FREE VALUE (log 7). Whether the k-th transceiver segment succeeds where the environment's script says nothing
(R155, I2: "any value (a Boolean draw per segment)"). It has no body: nothing can be proved of its value. -/
opaque segOk : Nat → Bool

/-- FREE VALUE (log 7). The i-th byte the flash device answers in the k-th transceiver segment where the environment's
script gives none (R154, I1, I4, I24: "any value (oracle)"). It has no body. -/
opaque deviceByte : Nat → Nat → Byte

/-- FREE VALUE (log 21). How many of its bytes the k-th transceiver segment put on the wire if it failed (R157, D15, I3: "any prefix of
its bytes, possibly empty and possibly all of them"): a number past their count stands for all of them. It has no body. -/
opaque sentBytes : Nat → Nat

end Config

/-- POLL_FAILURE_MODE (R12, D22). -/
inductive PollFailureMode where
  | halt
  | error
  deriving DecidableEq, Repr

/-- BIT_ORDER (R10, D26): no rule reads it. -/
inductive BitOrder where
  | msbFirst
  | lsbFirst
  deriving DecidableEq, Repr

/-- Every parameter of R8 to R12, each with the spec's default. They are fixed when the block is built (R32) and stand in State,
so that every statement about a state is a statement about every choice of them (R12, log 18). The three widths are bounded by
the fields that carry the values: four bytes each for an address and a length (R101), three for a wire address (R14). -/
structure Params where
  /-- PAGE_SIZE in bytes (R8). -/
  pageSize : Nat := 256
  /-- SECTOR_SIZE in bytes (R8). -/
  sectorSize : Nat := 4096
  /-- BLOCK32_SIZE in bytes (R8). -/
  block32Size : Nat := 32768
  /-- BLOCK64_SIZE in bytes (R8). -/
  block64Size : Nat := 65536
  /-- PP_MIN, the smallest page-program payload (R8). -/
  ppMin : Nat := 1
  /-- PP_MAX, the largest page-program payload (R8). -/
  ppMax : Nat := 256
  /-- ADDR_BITS, the width of the address container (R9). -/
  addrBits : Fin 33 := 32
  /-- WIRE_ADDR_BITS, the number of address bits serialised (R9). -/
  wireAddrBits : Fin 25 := 24
  /-- LEN_BITS, the width of a length (R9, D7). -/
  lenBits : Fin 33 := 32
  /-- CAPACITY in bytes (R9): documentation only, no rule checks it (R80, D10). -/
  capacity : Nat := 16777216
  /-- SPI_MODE (R10): no rule depends on it. -/
  spiMode : Nat := 0
  /-- WORD_BITS, the bits of one bus word, a byte (R10, R13). -/
  wordBits : Nat := 8
  /-- SCLK_HZ (R10): no rule of the engine depends on it; R360 computes clocking times from it. -/
  sclkHz : Nat := 10000000
  /-- BIT_ORDER (R10, D26): no rule depends on it. -/
  bitOrder : BitOrder := .msbFirst
  /-- RX_FILL (R10, R154, D13), the byte driven for each byte received. -/
  rxFill : Byte := 0x00
  /-- EXPECTED_MFR (R11, D30). -/
  expectedMfr : Byte := 0xEF
  /-- EXPECTED_DEV (R11, D30). -/
  expectedDev : Byte := 0x17
  /-- FAST_READ_DUMMY, the dummy byte count of FastRead (R11). -/
  fastReadDummy : Nat := 1
  /-- DUMMY_VALUE (R11, R114, R162). -/
  dummyValue : Byte := 0x00
  /-- ID_PLACEHOLDERS, the number of placeholder bytes sent after the identification opcode (R11). -/
  idPlaceholders : Nat := 4
  /-- ID_PLACEHOLDER_VALUE (R11, D12). -/
  idPlaceholderValue : Byte := 0x00
  /-- ID_RX, the number of identification bytes received (R11). -/
  idRx : Nat := 2
  /-- POLL_INTERVAL in microseconds, nominally 1 ms (R12, D24): no rule depends on it. -/
  pollIntervalUs : Nat := 1000
  /-- MAX_POLLS (R12, D23): `none` is UNBOUNDED. -/
  maxPolls : Option Nat := none
  /-- POLL_FAILURE_MODE (R12, D22). -/
  pollFailureMode : PollFailureMode := .halt
  deriving DecidableEq, Repr

namespace Params

/-- The spec's default parameters (R8 to R12). -/
def default : Params := {}

/-- How many addresses the container holds: 2^ADDR_BITS (R9). -/
def addrSpace (p : Params) : Nat := 2 ^ p.addrBits.val

/-- How many addresses the wire carries: 2^WIRE_ADDR_BITS (R9). -/
def wireSpace (p : Params) : Nat := 2 ^ p.wireAddrBits.val

/-- The lengths are those below 2^LEN_BITS (R9). -/
def lenSpace (p : Params) : Nat := 2 ^ p.lenBits.val

/-- R8: PP_MIN = 1 and PP_MAX = PAGE_SIZE, "sector size divides block32 and block64". Beside R8, what the defaults have and the
rules rest on (log 18): a chunk fits its 9-bit register (R23), and the sizes divide the wire's address space, so that dropping
address bits (R115) keeps page offsets and unit alignment. -/
def geometryOk (p : Params) : Bool :=
  p.ppMin == 1 && p.ppMax == p.pageSize && decide (p.pageSize < 2 ^ 9) &&
    p.block32Size % p.sectorSize == 0 && p.block64Size % p.sectorSize == 0 &&
    p.wireSpace % p.pageSize == 0 && p.wireSpace % p.block32Size == 0 && p.wireSpace % p.block64Size == 0

/-- The parameters that a block can have: the geometry, the wire's address bits among the container's (R9), the byte of R13, and a
bound MAX_POLLS of at least 1 (R12). -/
def wf (p : Params) : Bool :=
  p.geometryOk && decide (p.wireAddrBits.val ≤ p.addrBits.val) && p.wordBits == 8 && p.maxPolls != some 0

end Params

end Sys2Proof
end

