-- ==== Sys2Proof/Syntax.lean ====
section
/-! DEFINITION. The instructions of the engine (30_encoding.md): the thirteen wire commands of R118 and the five host
operations of R102, the two forms their encodings take, and the words of a response (R104). -/

namespace Sys2Proof

/-- One constructor per row of the opcode table. A wire command carries the operands its frame is built from (R107 to
R114); a host operation those its request carries (R102). -/
inductive Instr where
  /-- Identification 0x90 (R171). -/
  | identification
  /-- PageProgram 0x02 (R172): the chunk's wire address and its payload. -/
  | pageProgram (a : WireAddr) (payload : List Byte)
  /-- ReadData 0x03 (R173): the start address and how many bytes are clocked in (R113). -/
  | readData (a : WireAddr) (n : Nat)
  /-- FastRead 0x0B (R174): the start address and how many bytes are clocked in after the dummy byte (R114). -/
  | fastRead (a : WireAddr) (n : Nat)
  /-- ReadStatusRegister1 0x05 (R175). -/
  | readStatusRegister1
  /-- ReadStatusRegister2 0x35 (R176). -/
  | readStatusRegister2
  /-- WriteEnable 0x06 (R177). -/
  | writeEnable
  /-- SectorErase 0x20 (R178): the unit's wire address. -/
  | sectorErase (a : WireAddr)
  /-- Block32Erase 0x52 (R179): the unit's wire address. -/
  | block32Erase (a : WireAddr)
  /-- Block64Erase 0xD8 (R180): the unit's wire address. -/
  | block64Erase (a : WireAddr)
  /-- ChipErase 0xC7 (R181). -/
  | chipErase
  /-- EnableReset 0x66 (R182). -/
  | enableReset
  /-- Reset 0x99 (R183). -/
  | reset
  /-- INIT, host op 0x01 (R225). -/
  | hostInit
  /-- READ, host op 0x02 (R280). -/
  | hostRead (addr len : Word)
  /-- WRITE, host op 0x03 (R240); `len` is the number of bytes given (R122). -/
  | hostWrite (addr : Word) (wdata : List Byte)
  /-- ERASE, host op 0x04 (R260). -/
  | hostErase (addr len : Word)
  /-- CHIP_ERASE, host op 0x05 (R269). -/
  | hostChipErase
  deriving DecidableEq, Repr

/-- One chip-select window as the frame formats of R107 give it: the bytes driven, in order, and how many bytes are
clocked in before chip-select is deasserted (R113, R114, R121). -/
structure Window where
  out : List Byte
  rxLen : Nat
  deriving DecidableEq, Repr

/-- The two encodings of R100: a host request, or a wire frame in its window. -/
inductive Words where
  | request (bytes : List Byte)
  | window (w : Window)
  deriving DecidableEq, Repr

/-- The request record of the `req` port (R21). -/
structure Request where
  op : Byte
  addr : Word
  len : Word
  wdata : List Byte
  deriving DecidableEq, Repr

/-- The status of a response (R29, R104). -/
inductive Status where
  | ok
  | err
  deriving DecidableEq, Repr

/-- The cause of a response (R301). The reserved codes 0xB to 0xF have no constructor: they are never produced (log 28). -/
inductive Cause where
  | none
  | idMismatch
  | badStatusSelector
  | misaligned
  | badPayloadSize
  | emptyBuffer
  | busFailure
  | welNotSet
  | timeout
  | noEraseUnit
  | illegalRequest
  deriving DecidableEq, Repr

/-- A response record as the host receives it (R21, R104). -/
structure Response where
  status : Status
  cause : Cause
  data : List Byte
  deriving DecidableEq, Repr

end Sys2Proof
end

