-- ==== Sys2Proof/WellFormed.lean ====
section
/-! DEFINITION. Which instructions the encodings of 30_encoding.md admit: the operand ranges of R107 to R114, R116 and R178
to R180, and the 32-bit length field of R101. -/

namespace Sys2Proof

/-- R8, R107, R112: a page-program payload is PP_MIN = 1 to PP_MAX = 256 bytes long. -/
def payloadSizeOk (p : Params) (payload : List Byte) : Bool :=
  p.ppMin ≤ payload.length && payload.length ≤ p.ppMax

/-- R116: `(a mod PAGE_SIZE) + c ≤ PAGE_SIZE`, the payload lies in the page of its address (90_conflicts.md C10, invariant (c)). -/
def fitsPage (p : Params) (a : WireAddr) (payload : List Byte) : Bool :=
  a.toNat % p.pageSize + payload.length ≤ p.pageSize

/-- R93, R178 to R180: an erase unit starts at a multiple of its size. -/
def unitAligned (size : Nat) (a : WireAddr) : Bool :=
  a.toNat % size == 0

/-- The operands are ones that the instruction's encoding admits. The meanings do not rest on it: R245 checks a payload's
size, and no transaction checks page crossing or alignment (R73, R178; log 24). -/
def Instr.WellFormed (p : Params) : Instr → Bool
  | .identification => true
  | .pageProgram a payload => payloadSizeOk p payload && fitsPage p a payload
  | .readData _ n => 1 ≤ n
  | .fastRead _ n => 1 ≤ n
  | .readStatusRegister1 => true
  | .readStatusRegister2 => true
  | .writeEnable => true
  | .sectorErase a => unitAligned p.sectorSize a
  | .block32Erase a => unitAligned p.block32Size a
  | .block64Erase a => unitAligned p.block64Size a
  | .chipErase => true
  | .enableReset => true
  | .reset => true
  | .hostInit => true
  | .hostRead _ _ => true
  | .hostWrite _ wdata => decide (wdata.length < 2 ^ 32)
  | .hostErase _ _ => true
  | .hostChipErase => true

end Sys2Proof
end

