-- ==== Sys2Proof/Decode.lean ====
section
/-! DEFINITION. The decoder, total on any words and rejecting by name, and after it the encoder, both from the encodings of
30_encoding.md; the response words of R104; and the table word the host asks about. -/

namespace Sys2Proof

namespace Opcode

/-! The wire opcode map (R118). -/

def identification : Byte := 0x90
def pageProgram : Byte := 0x02
def readData : Byte := 0x03
def fastRead : Byte := 0x0B
def readStatusRegister1 : Byte := 0x05
def readStatusRegister2 : Byte := 0x35
def writeEnable : Byte := 0x06
def sectorErase : Byte := 0x20
def block32Erase : Byte := 0x52
def block64Erase : Byte := 0xD8
def chipErase : Byte := 0xC7
def enableReset : Byte := 0x66
def reset : Byte := 0x99

/-- Every opcode of R118: the engine sends no other (R119). -/
def wireOpcodes : List Byte :=
  [identification, pageProgram, readData, fastRead, readStatusRegister1, readStatusRegister2, writeEnable, sectorErase,
    block32Erase, block64Erase, chipErase, enableReset, reset]

end Opcode

namespace HostOp

/-! The operation codes of a host request (R102). -/

def init : Byte := 0x01
def read : Byte := 0x02
def write : Byte := 0x03
def erase : Byte := 0x04
def chipErase : Byte := 0x05

/-- R120: every other code is reserved. -/
def known (op : Byte) : Bool :=
  op == init || op == read || op == write || op == erase || op == chipErase

end HostOp

/-- A list of n bytes 0x00 (R14). -/
def zeros (n : Nat) : List Byte := List.replicate n 0x00

/-- The three-byte big-endian serialisation of an address (R14, R65, R106). -/
def be3 (a : WireAddr) : List Byte :=
  [a.extractLsb' 16 8, a.extractLsb' 8 8, a.extractLsb' 0 8]

/-- The four-byte big-endian field of a request header (R101). -/
def be4 (v : Word) : List Byte :=
  [v.extractLsb' 24 8, v.extractLsb' 16 8, v.extractLsb' 8 8, v.extractLsb' 0 8]

/-- The address that three bytes carry, most significant byte first (R65). -/
def ofBe3 (b2 b1 b0 : Byte) : WireAddr := b2 ++ b1 ++ b0

/-- The field that four bytes carry, most significant byte first (R101). -/
def ofBe4 (b3 b2 b1 b0 : Byte) : Word := b3 ++ b2 ++ b1 ++ b0

/-- Why the decoder refuses words. -/
inductive DecodeError where
  /-- A window in which no byte is driven. -/
  | emptyWindow
  /-- Byte 0 of a frame is none of the thirteen opcodes (R119). -/
  | unknownOpcode (op : Byte)
  /-- The opcode's frame format (R107) has another length, other constant bytes or another number of bytes in. -/
  | badFormat (op : Byte)
  /-- A page-program payload of no byte or of more than 256 (R107). -/
  | badPayloadLength (op : Byte)
  /-- A page-program payload that leaves its page (R116). -/
  | crossesPage (op : Byte)
  /-- An erase address that is no multiple of the unit's size (R178 to R180). -/
  | misalignedUnit (op : Byte)
  /-- A read that clocks no byte in (R107: n ≥ 1). -/
  | emptyRead (op : Byte)
  /-- A request shorter than its header and data (R103). -/
  | truncatedRequest
  /-- A request longer than its header and data (R103). -/
  | trailingBytes
  /-- A reserved operation code, 0x00 or 0x06 to 0xFF (R120). -/
  | reservedOp (op : Byte)
  deriving DecidableEq, Repr

namespace Frame

/-! The seven frame formats of R107, each reading the bytes after the opcode. -/

/-- FRAME_CMD (R108). -/
def cmd (op : Byte) (i : Instr) (rest : List Byte) (n : Nat) : Except DecodeError Instr :=
  if rest = [] ∧ n = 0 then .ok i else .error (.badFormat op)

/-- FRAME_CMD_RX (R109). -/
def cmdRx (op : Byte) (i : Instr) (rest : List Byte) (n : Nat) : Except DecodeError Instr :=
  if rest = [] ∧ n = 1 then .ok i else .error (.badFormat op)

/-- FRAME_ID (R110). -/
def id (p : Params) (op : Byte) (i : Instr) (rest : List Byte) (n : Nat) : Except DecodeError Instr :=
  if rest = List.replicate p.idPlaceholders p.idPlaceholderValue ∧ n = p.idRx then .ok i
  else .error (.badFormat op)

/-- FRAME_ADDR (R111), of a unit of `size` bytes. -/
def addr (op : Byte) (size : Nat) (k : WireAddr → Instr) (rest : List Byte) (n : Nat) : Except DecodeError Instr :=
  match rest with
  | [a2, a1, a0] =>
    if n ≠ 0 then .error (.badFormat op)
    else if unitAligned size (ofBe3 a2 a1 a0) then .ok (k (ofBe3 a2 a1 a0))
    else .error (.misalignedUnit op)
  | _ => .error (.badFormat op)

/-- FRAME_ADDR_TX (R112). -/
def addrTx (p : Params) (op : Byte) (k : WireAddr → List Byte → Instr) (rest : List Byte) (n : Nat) : Except DecodeError Instr :=
  match rest with
  | a2 :: a1 :: a0 :: payload =>
    if n ≠ 0 then .error (.badFormat op)
    else if payloadSizeOk p payload = false then .error (.badPayloadLength op)
    else if fitsPage p (ofBe3 a2 a1 a0) payload = false then .error (.crossesPage op)
    else .ok (k (ofBe3 a2 a1 a0) payload)
  | _ => .error (.badFormat op)

/-- FRAME_ADDR_RX (R113). -/
def addrRx (op : Byte) (k : WireAddr → Nat → Instr) (rest : List Byte) (n : Nat) : Except DecodeError Instr :=
  match rest with
  | [a2, a1, a0] => if n = 0 then .error (.emptyRead op) else .ok (k (ofBe3 a2 a1 a0) n)
  | _ => .error (.badFormat op)

/-- FRAME_ADDR_DUMMY_RX (R114): FAST_READ_DUMMY dummy bytes stand after the address. -/
def addrDummyRx (p : Params) (op : Byte) (k : WireAddr → Nat → Instr) (rest : List Byte) (n : Nat) : Except DecodeError Instr :=
  match rest with
  | a2 :: a1 :: a0 :: dummies =>
    if dummies ≠ List.replicate p.fastReadDummy p.dummyValue then .error (.badFormat op)
    else if n = 0 then .error (.emptyRead op)
    else .ok (k (ofBe3 a2 a1 a0) n)
  | _ => .error (.badFormat op)

end Frame

/-- The wire command whose opcode is `op` and whose window drives `rest` after it and clocks `n` bytes in (R105, R118). -/
def decodeFrame (p : Params) (op : Byte) (rest : List Byte) (n : Nat) : Except DecodeError Instr :=
  if op = Opcode.identification then Frame.id p op .identification rest n
  else if op = Opcode.pageProgram then Frame.addrTx p op .pageProgram rest n
  else if op = Opcode.readData then Frame.addrRx op .readData rest n
  else if op = Opcode.fastRead then Frame.addrDummyRx p op .fastRead rest n
  else if op = Opcode.readStatusRegister1 then Frame.cmdRx op .readStatusRegister1 rest n
  else if op = Opcode.readStatusRegister2 then Frame.cmdRx op .readStatusRegister2 rest n
  else if op = Opcode.writeEnable then Frame.cmd op .writeEnable rest n
  else if op = Opcode.sectorErase then Frame.addr op p.sectorSize .sectorErase rest n
  else if op = Opcode.block32Erase then Frame.addr op p.block32Size .block32Erase rest n
  else if op = Opcode.block64Erase then Frame.addr op p.block64Size .block64Erase rest n
  else if op = Opcode.chipErase then Frame.cmd op .chipErase rest n
  else if op = Opcode.enableReset then Frame.cmd op .enableReset rest n
  else if op = Opcode.reset then Frame.cmd op .reset rest n
  else .error (.unknownOpcode op)

/-- The wire command that a chip-select window carries (R105). -/
def decodeWindow (p : Params) (w : Window) : Except DecodeError Instr :=
  match w.out with
  | [] => .error .emptyWindow
  | op :: rest => decodeFrame p op rest w.rxLen

/-- R103: how many bytes follow the header of a request. -/
def requestDataLength (op : Byte) (len : Word) : Nat :=
  if op = HostOp.write then len.toNat else 0

/-- The host operation of a request whose header has been read, from exactly its data bytes (R101, R102). -/
def decodeHeader (op : Byte) (addr len : Word) (data : List Byte) : Except DecodeError Instr :=
  if op = HostOp.init then .ok .hostInit
  else if op = HostOp.read then .ok (.hostRead addr len)
  else if op = HostOp.write then .ok (.hostWrite addr data)
  else if op = HostOp.erase then .ok (.hostErase addr len)
  else if op = HostOp.chipErase then .ok .hostChipErase
  else .error (.reservedOp op)

/-- The host operation at the head of a list of bytes, and the bytes after it (R101, R103). -/
def decodeRequest (bytes : List Byte) : Except DecodeError (Instr × List Byte) :=
  match bytes with
  | op :: a3 :: a2 :: a1 :: a0 :: l3 :: l2 :: l1 :: l0 :: rest =>
    let n := requestDataLength op (ofBe4 l3 l2 l1 l0)
    if rest.length < n then .error .truncatedRequest
    else
      match decodeHeader op (ofBe4 a3 a2 a1 a0) (ofBe4 l3 l2 l1 l0) (rest.take n) with
      | .ok i => .ok (i, rest.drop n)
      | .error e => .error e
  | _ => .error .truncatedRequest

/-- The decoder of a block with these parameters: the one instruction that the words spell, or why they spell none. -/
def decode (p : Params) : Words → Except DecodeError Instr
  | .request bytes =>
    match decodeRequest bytes with
    | .ok (i, []) => .ok i
    | .ok (_, _ :: _) => .error .trailingBytes
    | .error e => .error e
  | .window w => decodeWindow p w

/-- The nine header bytes of a request (R101). -/
def requestHeader (op : Byte) (addr len : Word) : List Byte :=
  op :: (be4 addr ++ be4 len)

/-- The encoder: the words of an instruction, from the same tables (R101, R107). INIT and CHIP_ERASE ignore addr and len
(R140): the encoder writes zeros there (log 29). -/
def encode (p : Params) : Instr → Words
  | .identification =>
    .window ⟨Opcode.identification :: List.replicate p.idPlaceholders p.idPlaceholderValue, p.idRx⟩
  | .pageProgram a payload => .window ⟨Opcode.pageProgram :: (be3 a ++ payload), 0⟩
  | .readData a n => .window ⟨Opcode.readData :: be3 a, n⟩
  | .fastRead a n =>
    .window ⟨Opcode.fastRead :: (be3 a ++ List.replicate p.fastReadDummy p.dummyValue), n⟩
  | .readStatusRegister1 => .window ⟨[Opcode.readStatusRegister1], 1⟩
  | .readStatusRegister2 => .window ⟨[Opcode.readStatusRegister2], 1⟩
  | .writeEnable => .window ⟨[Opcode.writeEnable], 0⟩
  | .sectorErase a => .window ⟨Opcode.sectorErase :: be3 a, 0⟩
  | .block32Erase a => .window ⟨Opcode.block32Erase :: be3 a, 0⟩
  | .block64Erase a => .window ⟨Opcode.block64Erase :: be3 a, 0⟩
  | .chipErase => .window ⟨[Opcode.chipErase], 0⟩
  | .enableReset => .window ⟨[Opcode.enableReset], 0⟩
  | .reset => .window ⟨[Opcode.reset], 0⟩
  | .hostInit => .request (requestHeader HostOp.init 0 0)
  | .hostRead addr len => .request (requestHeader HostOp.read addr len)
  | .hostWrite addr wdata =>
    .request (requestHeader HostOp.write addr (BitVec.ofNat 32 wdata.length) ++ wdata)
  | .hostErase addr len => .request (requestHeader HostOp.erase addr len)
  | .hostChipErase => .request (requestHeader HostOp.chipErase 0 0)

/-- The bytes of a request record (R101): the data bytes follow the header for WRITE only. -/
def Request.bytes (r : Request) : List Byte :=
  requestHeader r.op r.addr r.len ++ (if r.op = HostOp.write then r.wdata else [])

/-! The words of a response (R104, R301). -/

/-- The 4-bit code of a cause (R301). -/
def Cause.code : Cause → BitVec 4
  | .none => 0x0
  | .idMismatch => 0x1
  | .badStatusSelector => 0x2
  | .misaligned => 0x3
  | .badPayloadSize => 0x4
  | .emptyBuffer => 0x5
  | .busFailure => 0x6
  | .welNotSet => 0x7
  | .timeout => 0x8
  | .noEraseUnit => 0x9
  | .illegalRequest => 0xA

/-- The cause a code stands for; the codes 0xB to 0xF are reserved (R120, R301). -/
def Cause.ofCode (c : BitVec 4) : Option Cause :=
  [Cause.none, .idMismatch, .badStatusSelector, .misaligned, .badPayloadSize, .emptyBuffer, .busFailure, .welNotSet,
    .timeout, .noEraseUnit, .illegalRequest].find? (fun k => k.code == c)

/-- The bit `resp_status` (R29). -/
def Status.bit : Status → BitVec 1
  | .ok => 0
  | .err => 1

/-- R104: status byte, cause byte with bits 7:4 zero, then the data bytes of a READ answered OK (every other response
has none). -/
def Response.bytes (r : Response) : List Byte :=
  r.status.bit.setWidth 8 :: r.cause.code.setWidth 8 :: r.data

/-! The table word of the host's question. -/

/-- The first `nbits` bits of `w` as bytes, the first byte being bits 7:0. -/
def tableBytes (nbits w : Nat) : List Byte :=
  (List.range ((nbits + 7) / 8)).map fun k => BitVec.ofNat 8 (w >>> (8 * k))

/-- The window of a wire opcode whose operand bytes are all zero, with the fewest bytes its format admits (R107). -/
def zeroOperandWindow (p : Params) (op : Byte) : Window :=
  if op = Opcode.identification then
    ⟨op :: List.replicate p.idPlaceholders p.idPlaceholderValue, p.idRx⟩
  else if op = Opcode.pageProgram then ⟨[op, 0, 0, 0] ++ zeros p.ppMin, 0⟩
  else if op = Opcode.readData then ⟨[op, 0, 0, 0], 1⟩
  else if op = Opcode.fastRead then ⟨[op, 0, 0, 0] ++ List.replicate p.fastReadDummy p.dummyValue, 1⟩
  else if op = Opcode.readStatusRegister1 ∨ op = Opcode.readStatusRegister2 then ⟨[op], 1⟩
  else if op = Opcode.sectorErase ∨ op = Opcode.block32Erase ∨ op = Opcode.block64Erase then ⟨[op, 0, 0, 0], 0⟩
  else ⟨[op], 0⟩

/-- The request record whose first bytes are the given ones, all others zero (R101). -/
def zeroPaddedRequest (bytes : List Byte) : Request :=
  let b := fun k => bytes.getD k 0
  let len := ofBe4 (b 5) (b 6) (b 7) (b 8)
  let n := requestDataLength (b 0) len
  { op := b 0, addr := ofBe4 (b 1) (b 2) (b 3) (b 4), len := len,
    wdata := (bytes.drop 9).take n ++ zeros (n - (bytes.drop 9).length) }

/-- What a table word lays out: one byte that is a wire opcode is that command's window; anything else is a host request
(log 1: a row of 8 bits names a wire command first, since PageProgram, ReadData and ReadStatusRegister1 have the same first
byte as READ, WRITE and CHIP_ERASE). -/
def tableLayout (p : Params) (nbits w : Nat) : Window ⊕ Request :=
  match tableBytes nbits w with
  | [op] => if Opcode.wireOpcodes.contains op then .inl (zeroOperandWindow p op) else .inr (zeroPaddedRequest [op])
  | bytes => .inr (zeroPaddedRequest bytes)

/-- The instruction the decoder of a block with the spec's default parameters reads from a table word (log 1). -/
def decodeTableWord (nbits w : Nat) : Option Instr :=
  match tableLayout Params.default nbits w with
  | .inl win => (decode Params.default (.window win)).toOption
  | .inr r => (decode Params.default (.request r.bytes)).toOption

end Sys2Proof
end

