-- ==== Sys2Proof/Machine/State.lean ====
section
/-! DEFINITION. The state of the engine as plain data (10_state.md), what its environment will answer, the reasons a step can
stop, and the state after reset (R37). -/

namespace Sys2Proof.Machine

/-- The sequencer phase (R24): 16 values. `mutate` is MUT. -/
inductive Phase where
  | idle
  | check
  | idTxn
  | rsten
  | rst
  | chunk
  | unit
  | poll
  | sleep
  | wren
  | welchk
  | mutate
  | advance
  | readTxn
  | resp
  | halted
  deriving DecidableEq, Repr

/-- The erase unit (R23, R262). -/
inductive EraseUnit where
  | sector
  | block32
  | block64
  deriving DecidableEq, Repr

/-- The phase the busy wait continues to when BUSY reads 0 (R23, `cont`). -/
inductive Cont where
  | wren
  | rsten
  deriving DecidableEq, Repr

/-- One executed segment of a transaction as the trace records it (R28, R153, R154): the bytes it was to drive, or the
number of bytes it was to receive and what was received; and whether the transceiver reported success. -/
inductive Seg where
  | w (bytes : List Byte) (ok : Bool)
  | r (n : Nat) (rx : List Byte) (ok : Bool)
  deriving DecidableEq, Repr

/-- The events of the trace (R28). -/
inductive Event where
  | accept (req : Request)
  | txn (segs : List Seg)
  | sleep
  | respond (status : Status) (cause : Cause) (data : List Byte)
  | halt
  deriving DecidableEq, Repr

/-- What the environment answers to one segment (R21, R155): whether the transceiver reports success, and the bytes the
flash device sends (for a read segment). -/
structure SegAnswer where
  ok : Bool
  rx : List Byte
  deriving DecidableEq, Repr

/-- The engine's working registers (R23). -/
structure Regs where
  op : Byte
  reqAddr : Word
  reqLen : Word
  wbuf : List Byte
  cur : Word
  rem : Word
  idx : Word
  chunk : BitVec 9
  unit : EraseUnit
  /-- A natural number, as R321 allows (log 15). -/
  polls : Nat
  cont : Cont
  deriving DecidableEq, Repr

/-- The response registers (R29). -/
structure Resp where
  valid : Bool
  status : Status
  cause : Cause
  data : List Byte
  deriving DecidableEq, Repr

/-- What stands at the engine's ports from outside (R21), and the model's own count of answered segments. -/
structure Env where
  /-- The requests the host offers, in order (R142): the head is the one on the `req` port (log 16). -/
  reqs : List Request
  /-- The `reset` input (R21, log 17). -/
  resetIn : Bool
  /-- The answers to the next segments, in order; past its end the free values of Config answer (log 7). -/
  answers : List SegAnswer
  /-- The model's own field: how many segments have been answered, the argument of the free values (log 7). -/
  draws : Nat
  deriving DecidableEq, Repr

/-- The whole state. -/
structure State where
  /-- The build-time parameters (R8 to R12, R32): no step changes them (log 18). -/
  params : Params
  phase : Phase
  regs : Regs
  resp : Resp
  /-- `halted` (R30). -/
  halted : Bool
  /-- `cs_n` (R31): true is 1, deasserted. -/
  csN : Bool
  /-- The output of the `seg` port (R21): the bytes that the engine drove in its last window, one for each byte time. The byte of a
  write segment is its own (R153), that of a read segment RX_FILL (R107, R154); of a failed segment a prefix of free length went out
  (R157, logs 21, 33). -/
  dataOut : List Byte
  /-- The trace (R28), oldest event first. -/
  trace : List Event
  /-- The model's own field: an internal call of one frame, which no host operation makes (log 3). -/
  call : Option Window
  env : Env
  deriving DecidableEq, Repr

/-- Why the machine stops with a fault. -/
inductive Fault where
  /-- Raised by `step` in the phase HALTED (R207: "A model records a fault here that is never cleared"; I5). Safe: the
  engine takes no step there. -/
  | halted
  /-- Raised by `step` in the phases MUT and ADVANCE when `op` is none of WRITE, ERASE and CHIP_ERASE, for which R25 gives
  no outcome. Safe: no run reaches such a state (log 12). -/
  | noPhaseRule (p : Phase)
  deriving DecidableEq, Repr

/-- Why an instruction or an offered request is refused. -/
inductive Refusal where
  /-- Only in `exec`: the instruction of that mnemonic has no meaning yet. Safe. -/
  | notModelled (mnemonic : String)
  /-- Raised at acceptance and by READ, WRITE and ERASE for a request with addr + len > 2^32, or with an address or
  a length that ADDR_BITS or LEN_BITS do not admit (R139: "a model refuses it").
  Safe (log 10). -/
  | hostDuty (addr : Word) (len : Nat)
  /-- Raised at acceptance for a WRITE record without exactly `len` data bytes, which is no request of R21, and in CHECK for
  such registers. Safe (log 11). -/
  | malformedRequest
  /-- Raised by `step` for an internal call whose window is no frame of R107. Safe: no run makes an internal call (log 3). -/
  | notAFrame (why : DecodeError)
  deriving DecidableEq, Repr

/-- The values the model names for the working registers, which the spec leaves unspecified at reset (R37, log 4). -/
def Regs.reset : Regs :=
  { op := 0, reqAddr := 0, reqLen := 0, wbuf := [], cur := 0, rem := 0, idx := 0, chunk := 0, unit := .sector, polls := 0,
    cont := .wren }

/-- `resp_valid` is 0 at reset (R37); the other response registers are unspecified and the model names their values (log 4). -/
def Resp.reset : Resp := { valid := false, status := .ok, cause := .none, data := [] }

/-- Nothing is offered, reset is not applied and no answer is scripted (logs 7, 16, 17). -/
def Env.reset : Env := { reqs := [], resetIn := false, answers := [], draws := 0 }

/-- The machine right after reset (R37, R341): no byte has been driven (R342, log 33). -/
def State.reset : State :=
  { params := Params.default, phase := .idle, regs := Regs.reset, resp := Resp.reset, halted := false, csN := true,
    dataOut := [], trace := [], call := none, env := Env.reset }

end Sys2Proof.Machine
end

