-- ==== Sys2Proof/Machine/Ops.lean ====
section
/-! DEFINITION. The named operations over the state: the environment's answers, chip-select and segments, the two framing
primitives (41_framing.md), the response, the abort and the halt (60_exceptions.md), acceptance (40_host_interface.md) and
engine reset (70_reset_and_hazards.md). -/

namespace Sys2Proof.Machine

/-! Small updates. -/

/-- `phase <- p` (R15). -/
def setPhase (p : Phase) (s : State) : State := { s with phase := p }

/-- Append an event to the trace (R28). -/
def record (e : Event) (s : State) : State := { s with trace := s.trace ++ [e] }

/-- `CS(0)` (R16, R156). -/
def csAssert (s : State) : State := { s with csN := false }

/-- `CS(1)` (R16, R156). -/
def csDeassert (s : State) : State := { s with csN := true }

/-! The environment's answers (R155, log 7). -/

/-- The success the environment reports for the k-th segment from now on. -/
def Env.okAt (e : Env) (k : Nat) : Bool :=
  match e.answers[k]? with
  | some a => a.ok
  | none => Config.segOk (e.draws + k)

/-- The n bytes the device answers in the segment numbered `draw`, of which the script gives `given`: its first n bytes, each
missing one a free value (log 7). -/
def fillRx (draw : Nat) (given : List Byte) (n : Nat) : List Byte :=
  given.take n ++ (List.range (n - given.length)).map (Config.deviceByte draw)

/-- The n bytes that a read segment, the k-th segment from now on, receives. -/
def Env.rxAt (e : Env) (k n : Nat) : List Byte :=
  match e.answers[k]? with
  | some a => fillRx (e.draws + k) a.rx n
  | none => fillRx (e.draws + k) [] n

/-- The environment after k more segments have been answered. -/
def Env.skip (e : Env) (k : Nat) : Env :=
  { e with answers := e.answers.drop k, draws := e.draws + k }

/-! Segments and transactions (41_framing.md). -/

/-- A segment the engine asks the transceiver for: `W(bytes)` or `R(n)` (R21). -/
inductive SegReq where
  | w (bytes : List Byte)
  | r (n : Nat)
  deriving DecidableEq, Repr

/-- Whether an executed segment succeeded. -/
def Seg.ok : Seg → Bool
  | .w _ k => k
  | .r _ _ k => k

/-- The bytes an executed segment received; those of a write segment are discarded (R153). -/
def Seg.received : Seg → List Byte
  | .w _ _ => []
  | .r _ rx _ => rx

/-- The bytes that a segment is to drive, one for each byte time: its own, or RX_FILL for each byte received (R10, R107, R153,
R154). -/
def Seg.intended (rxFill : Byte) : Seg → List Byte
  | .w bytes _ => bytes
  | .r n _ _ => List.replicate n rxFill

/-- The bytes that a segment put on the wire: all it was to drive, or the first `sent` of them if it failed (R157). -/
def Seg.driven (rxFill : Byte) (sent : Nat) (g : Seg) : List Byte :=
  if g.ok then g.intended rxFill else (g.intended rxFill).take sent

/-- The bytes that the segments of a window put on the wire, the first of them being the segment numbered `draw`: how much of a failed
one went out is a free value (R157, I3, log 21). -/
def drivenBytes (rxFill : Byte) : Nat → List Seg → List Byte
  | _, [] => []
  | draw, g :: gs => g.driven rxFill (Config.sentBytes draw) ++ drivenBytes rxFill (draw + 1) gs

/-- `SegWrite(bytes)` (R153), answered by the environment. -/
def segWrite (bytes : List Byte) (e : Env) : Seg := .w bytes (e.okAt 0)

/-- `SegRead(n)` (R154), answered by the environment. -/
def segRead (n : Nat) (e : Env) : Seg := .r n (e.rxAt 0 n) (e.okAt 0)

/-- One segment. -/
def runSeg (q : SegReq) (e : Env) : Seg :=
  match q with
  | .w bytes => segWrite bytes e
  | .r n => segRead n e

/-- The executed segments of one window, in order; the first that fails ends them (R158, R161, D14). -/
def runSegs : List SegReq → Env → List Seg
  | [], _ => []
  | q :: qs, e => runSeg q e :: (if (runSeg q e).ok then runSegs qs (e.skip 1) else [])

/-- What a framing primitive gives back: `ok`, the received bytes, and the state after the window. -/
structure TxnResult where
  ok : Bool
  rx : List Byte
  st : State
  deriving DecidableEq, Repr

/-- One transaction (R150): CS low, the segments, CS high on every exit path (R152), one `Txn` event; the bytes
it drives stand on the data output. It succeeds when every segment it executed did (R163). -/
def transaction (qs : List SegReq) (s : State) : TxnResult :=
  let low := csAssert s
  let gs := runSegs qs low.env
  { ok := gs.all Seg.ok, rx := gs.flatMap Seg.received,
    st := csDeassert (record (.txn gs) { low with
      env := low.env.skip gs.length, dataOut := drivenBytes low.params.rxFill low.env.draws gs }) }

/-- A write segment, left out when it would drive no byte (R158, R160). -/
def writeUnlessEmpty (bytes : List Byte) : List SegReq := if bytes = [] then [] else [.w bytes]

/-- A read segment, left out when it would receive no byte (R160). -/
def readUnlessZero (n : Nat) : List SegReq := if n = 0 then [] else [.r n]

/-- `transmit(opcode, a, payload)` (R158): the 4-byte header, then the payload if it is not empty. -/
def transmit (op : Byte) (a : WireAddr) (payload : List Byte) (s : State) : TxnResult :=
  transaction (.w (op :: be3 a) :: writeUnlessEmpty payload) s

/-- `transmit_and_receive(tx, n, dummy_count)` (R160): `tx`, then the dummy bytes in one segment (R162), then the receive,
each left out when it is empty. -/
def transmitAndReceive (tx : List Byte) (n dummyCount : Nat) (s : State) : TxnResult :=
  transaction (writeUnlessEmpty tx ++ writeUnlessEmpty (List.replicate dummyCount s.params.dummyValue) ++ readUnlessZero n) s

/-! The end of an operation (R135, R308) and the halt (R207). -/

/-- `resp <- (OK, NONE, data); phase <- RESP`, the OKR of R25 (R135). -/
def respondOk (data : List Byte) (s : State) : State :=
  { s with resp := { s.resp with status := .ok, cause := .none, data := data }, phase := .resp }

/-- `raise Error(c)`: the abort of R308, the ERR(c) of R25. Nothing is saved and nothing is undone; chip-select is already
deasserted (R152). -/
def raise (c : Cause) (s : State) : State :=
  { s with resp := { s.resp with status := .err, cause := c, data := [] }, phase := .resp }

/-- The step of RESP (R135, R136, R308): raise `resp_valid`, append `Respond`, lower `resp_valid`, go to IDLE. The engine keeps
no copy of the read data after the response (R34, log 14). -/
def deliver (s : State) : State :=
  let s1 := { s with resp := { s.resp with valid := true } }
  let s2 := record (.respond s1.resp.status s1.resp.cause s1.resp.data) s1
  { s2 with resp := { s2.resp with valid := false, data := [] }, phase := .idle }

/-- `Halt()` (R207). -/
def halt (s : State) : State := { record .halt s with halted := true, phase := .halted }

/-! Shapes that the meanings share. -/

/-- Go on with `k` when the transaction succeeded, else `raise Error(BUS_FAILURE)` (R163). -/
def orBusFailure (r : TxnResult) (k : State → State) : State :=
  if r.ok then k r.st else raise .busFailure r.st

/-- In phase p, go on as that phase's row of R25 says. In another phase the command was called by nothing in R25: the call
returns and the phase stays (log 20). -/
def continueIn (p : Phase) (k : State → State) (s : State) : State := if s.phase = p then k s else s

/-- Enter the busy wait: `polls <- 0; cont <- c; phase <- POLL` (R25, R203). -/
def startPoll (c : Cont) (s : State) : State :=
  { s with regs := { s.regs with polls := 0, cont := c }, phase := .poll }

/-! Acceptance (R130, R131) and the host's duty (R139). -/

/-- The latches of R130. -/
def latch (op : Byte) (addr len : Word) (wdata : List Byte) (s : State) : State :=
  { s with regs := { s.regs with op := op, reqAddr := addr, reqLen := len, wbuf := wdata } }

/-- The operands of INIT and CHIP_ERASE are ignored (R140): only the code is latched. -/
def latchOp (op : Byte) (s : State) : State := { s with regs := { s.regs with op := op } }

/-- R139: `addr + len ≤ 2^32`, that is 2^ADDR_BITS (R9), for an address of ADDR_BITS and a length of LEN_BITS; a narrower block
refuses what it has no bits for (D7, I16). -/
def dutyOk (p : Params) (addr : Word) (len : Nat) : Bool :=
  decide (addr.toNat < p.addrSpace ∧ len < p.lenSpace ∧ addr.toNat + len ≤ p.addrSpace)

/-- R139 binds READ, WRITE and ERASE only. -/
def requestDutyOk (p : Params) (r : Request) : Bool :=
  if r.op = HostOp.read ∨ r.op = HostOp.write ∨ r.op = HostOp.erase then dutyOk p r.addr r.len.toNat else true

/-- R21: a WRITE record holds `len` data bytes (log 11). -/
def requestComplete (r : Request) : Bool :=
  if r.op = HostOp.write then r.wdata.length == r.len.toNat else true

/-- Accept a request (R130): take it off the port, latch its fields (`wbuf` empty unless WRITE), append `Accept`, go to
CHECK. -/
def accept (r : Request) (rest : List Request) (s : State) : State :=
  let s1 := { s with env := { s.env with reqs := rest } }
  setPhase .check
    (record (.accept r) (latch r.op r.addr r.len (if r.op = HostOp.write then r.wdata else []) s1))

/-- Engine reset (R340): every engine register at its reset value (R37, log 5), no frame on the bus (R342), the request in
progress discarded. What stands at the ports stays: a held request is still offered, and the device is not touched (R343). The
reset input is taken as a pulse (log 17). -/
def engineReset (s : State) : State :=
  { State.reset with params := s.params, env := { s.env with resetIn := false } }

end Sys2Proof.Machine
end

