-- ==== Sys2Proof/Machine/Operands.lean ====
section
/-! DEFINITION. The operands that the engine assembles for its frames (30_encoding.md R115 to R117): the wire address, the
chunk and its payload, and the erase unit. -/

namespace Sys2Proof.Machine

/-- R115: the address operand is `cur[23:0]`, the low WIRE_ADDR_BITS bits (R9); the bits above are dropped (R79, D8, log 19). -/
def wireAddr (p : Params) (cur : Word) : WireAddr := BitVec.ofNat 24 (cur.toNat % p.wireSpace)

/-- `(cur + x) mod 2^32`, that is modulo 2^ADDR_BITS (R9, R25, R243, R264). -/
def addrAdd (p : Params) (cur x : Word) : Word := BitVec.ofNat 32 ((cur.toNat + x.toNat) % p.addrSpace)

/-- R241: `min(PAGE_SIZE − (cur mod PAGE_SIZE), rem)`. -/
def chunkSize (p : Params) (cur rem : Word) : Nat := min (p.pageSize - cur.toNat % p.pageSize) rem.toNat

/-- R116, R242: the payload `wbuf[idx .. idx + chunk)`. -/
def payload (r : Regs) : List Byte := (r.wbuf.drop r.idx.toNat).take r.chunk.toNat

/-- The size of a unit (R260). -/
def EraseUnit.size (p : Params) : EraseUnit → Nat
  | .sector => p.sectorSize
  | .block32 => p.block32Size
  | .block64 => p.block64Size

/-- R262: does the row of this unit hold at `cur` with `rem` bytes left? -/
def unitFits (p : Params) (u : EraseUnit) (cur rem : Word) : Bool :=
  cur.toNat % u.size p == 0 && decide (u.size p ≤ rem.toNat)

/-- `select_unit(cur, rem)` (R262): the first row that holds, largest unit first. -/
def selectUnit (p : Params) (cur rem : Word) : Option EraseUnit :=
  if unitFits p .block64 cur rem then some .block64
  else if unitFits p .block32 cur rem then some .block32
  else if unitFits p .sector cur rem then some .sector
  else none

/-- The erase command of a unit (R263). -/
def eraseInstr : EraseUnit → WireAddr → Instr
  | .sector, a => .sectorErase a
  | .block32, a => .block32Erase a
  | .block64, a => .block64Erase a

end Sys2Proof.Machine
end

