-- ==== Sys2Proof/Machine/Flags.lean ====
section
/-! DEFINITION. The two flags the engine interprets (10_state.md R26, R27) and what it does on them: the poll of the busy wait
and the check of the write-enable gate (43_status_write_enable.md). -/

namespace Sys2Proof.Machine

/-- BUSY = SR1[0] (R26, R202). -/
def busy (sr1 : Byte) : Bool := sr1.getLsbD 0

/-- WEL = SR1[1] (R26, R210). -/
def wel (sr1 : Byte) : Bool := sr1.getLsbD 1

/-- `s <- rx[0]` (R175, R200). A successful status read has received exactly one byte (log 26). -/
def statusByte (rx : List Byte) : Byte := rx.headD 0

/-- The phase that `cont` names (R23, R25). -/
def contPhase : Cont → Phase
  | .wren => .wren
  | .rsten => .rsten

/-- `polls <- polls + 1` (R203). -/
def countPoll (s : State) : State := { s with regs := { s.regs with polls := s.regs.polls + 1 } }

/-- R205: the bound MAX_POLLS is reached. -/
def boundReached (s : State) : Bool := s.params.maxPolls == some s.regs.polls

/-- The outcome of POLL (R25, R203, R205 to R208), in the order of R306: a failed read first, then BUSY = 0, then the bound. -/
def pollOutcome (r : TxnResult) : State :=
  let s := countPoll r.st
  if r.ok then
    if busy (statusByte r.rx) then
      if boundReached s then raise .timeout s else setPhase .sleep s
    else setPhase (contPhase s.regs.cont) s
  else
    match s.params.pollFailureMode with
    | .halt => halt s
    | .error => raise .busFailure s

/-- The outcome of WELCHK (R25, R210 to R212): a failed read is BUS_FAILURE in every mode, and only bit 1 decides. -/
def gateOutcome (r : TxnResult) : State :=
  orBusFailure r fun s => if wel (statusByte r.rx) then setPhase .mutate s else raise .welNotSet s

/-- What the reader of a status byte does with it: the busy wait in POLL, the gate in WELCHK (R25). Elsewhere no rule reads the
byte; a failure is a BUS_FAILURE (R176, log 20). -/
def statusOutcome (s : State) (r : TxnResult) : State :=
  match s.phase with
  | .poll => pollOutcome r
  | .welchk => gateOutcome r
  | _ => orBusFailure r id

/-- `read_status(n)` (R200, R201), handing its result to `k`: a selector other than 1 or 2 is BAD_STATUS_SELECTOR with no
transaction. -/
def readStatus (n : Nat) (s : State) (k : TxnResult → State) : State :=
  if n = 1 then k (transmitAndReceive [Opcode.readStatusRegister1] 1 0 s)
  else if n = 2 then k (transmitAndReceive [Opcode.readStatusRegister2] 1 0 s)
  else raise .badStatusSelector s

end Sys2Proof.Machine
end

