-- ==== Sys2Proof/Machine/Program.lean ====
section
/-! DEFINITION. The meanings of PageProgram and of WRITE (45_write_engine.md). -/

namespace Sys2Proof.Machine

/-- In MUT, a mutating transaction that succeeded goes on to ADVANCE (R25). -/
def mutated (r : TxnResult) : State := orBusFailure r (continueIn .mutate (setPhase .advance))

/-- PageProgram 0x02 (R172) through `page_program` (R245): the size check comes before chip-select (D17). -/
def execPageProgram (a : WireAddr) (data : List Byte) (s : State) : Host.Outcome State Fault Refusal :=
  .next (if payloadSizeOk s.params data then mutated (transmit Opcode.pageProgram a data s) else raise .badPayloadSize s)

/-- `cur <- addr, rem <- len` (R25, R240, R260, R280). -/
def loadRange (addr len : Word) (s : State) : State := { s with regs := { s.regs with cur := addr, rem := len } }

/-- `idx <- 0` (R25, R240). -/
def clearIdx (s : State) : State := { s with regs := { s.regs with idx := 0 } }

/-- WRITE, host op 0x03 (R240), its CHECK row of R25: an empty buffer is answered OK with no transaction (R248), another goes on
to CHUNK. A request that breaks R139 is refused. -/
def execHostWrite (addr : Word) (wdata : List Byte) (s : State) : Host.Outcome State Fault Refusal :=
  if dutyOk s.params addr wdata.length then
    let len := BitVec.ofNat 32 wdata.length
    let t := clearIdx (loadRange addr len (latch HostOp.write addr len wdata s))
    .next (if wdata = [] then respondOk [] t else setPhase .chunk t)
  else .refused (.hostDuty addr wdata.length)

end Sys2Proof.Machine
end

