-- ==== Sys2Proof/Machine/Erase.lean ====
section
/-! DEFINITION. The meanings of the erase commands, of ERASE and of CHIP_ERASE (46_erase_engine.md). -/

namespace Sys2Proof.Machine

/-- SectorErase 0x20 (R178). -/
def execSectorErase (a : WireAddr) (s : State) : Host.Outcome State Fault Refusal :=
  .next (mutated (transmit Opcode.sectorErase a [] s))

/-- Block32Erase 0x52 (R179). -/
def execBlock32Erase (a : WireAddr) (s : State) : Host.Outcome State Fault Refusal :=
  .next (mutated (transmit Opcode.block32Erase a [] s))

/-- Block64Erase 0xD8 (R180). -/
def execBlock64Erase (a : WireAddr) (s : State) : Host.Outcome State Fault Refusal :=
  .next (mutated (transmit Opcode.block64Erase a [] s))

/-- ChipErase 0xC7 (R181): the opcode byte alone (D11, D21). -/
def execChipErase (s : State) : Host.Outcome State Fault Refusal :=
  .next (mutated (transmitAndReceive [Opcode.chipErase] 0 0 s))

/-- R261: `addr mod 4096 = 0` and `len mod 4096 = 0`, 4096 being SECTOR_SIZE (R8). -/
def eraseAligned (p : Params) (addr len : Word) : Bool :=
  addr.toNat % p.sectorSize == 0 && len.toNat % p.sectorSize == 0

/-- ERASE, host op 0x04 (R260), its CHECK row of R25: MISALIGNED before any bus activity (R261), an empty range is answered OK
(R266), another goes on to UNIT. The raise in CHECK is R25, R302 and R306 against R312: DESIGN CHOICE (log 32). A request that
breaks R139 is refused. -/
def execHostErase (addr len : Word) (s : State) : Host.Outcome State Fault Refusal :=
  if dutyOk s.params addr len.toNat then
    let t := latch HostOp.erase addr len [] s
    .next (
      if eraseAligned s.params addr len then
        if len = 0 then respondOk [] (loadRange addr len t) else setPhase .unit (loadRange addr len t)
      else raise .misaligned t)
  else .refused (.hostDuty addr len.toNat)

/-- CHIP_ERASE, host op 0x05 (R269), its CHECK row of R25: the busy wait, then WREN. `addr` and `len` are ignored (R140). -/
def execHostChipErase (s : State) : Host.Outcome State Fault Refusal :=
  .next (startPoll .wren (latchOp HostOp.chipErase s))

end Sys2Proof.Machine
end

