-- ==== Sys2Proof/Machine/Identify.lean ====
section
/-! DEFINITION. The meanings of the identification and chip reset commands and of INIT (44_identify_reset.md). -/

namespace Sys2Proof.Machine

/-- What `identify()` does with its transaction (R220, R221): BUS_FAILURE before ID_MISMATCH (R306), an exact comparison of both
bytes, manufacturer first (R67); in ID_TXN it then enters the busy wait of the chip reset sequence (R25, R223). -/
def identifyOutcome (r : TxnResult) : State :=
  orBusFailure r fun s =>
    if r.rx = [s.params.expectedMfr, s.params.expectedDev] then continueIn .idTxn (startPoll .rsten) s
    else raise .idMismatch s

/-- Identification 0x90 (R171): FRAME_ID, then the check of R220. -/
def execIdentification (s : State) : Host.Outcome State Fault Refusal :=
  .next (identifyOutcome
    (transmitAndReceive
      (Opcode.identification :: List.replicate s.params.idPlaceholders s.params.idPlaceholderValue) s.params.idRx 0 s))

/-- EnableReset 0x66 (R182): in RSTEN, on to RST (R25). -/
def execEnableReset (s : State) : Host.Outcome State Fault Refusal :=
  .next (orBusFailure (transmitAndReceive [Opcode.enableReset] 0 0 s) (continueIn .rsten (setPhase .rst)))

/-- Reset 0x99 (R183): in RST, the operation ends with OK; no acknowledgement is awaited (R25, R224). -/
def execReset (s : State) : Host.Outcome State Fault Refusal :=
  .next (orBusFailure (transmitAndReceive [Opcode.reset] 0 0 s) (continueIn .rst (respondOk [])))

/-- INIT, host op 0x01 (R225), its CHECK row of R25: on to ID_TXN. `addr` and `len` are ignored (R140). -/
def execHostInit (s : State) : Host.Outcome State Fault Refusal :=
  .next (setPhase .idTxn (latchOp HostOp.init s))

end Sys2Proof.Machine
end

