-- ==== Sys2Proof/Machine/Read.lean ====
section
/-! DEFINITION. The meanings of the array reads and of READ (47_read_engine.md). -/

namespace Sys2Proof.Machine

/-- ReadData 0x03 (R173): `rd_txn`, which no rule of R25 calls (R285): the call returns, or is a BUS_FAILURE. -/
def execReadData (a : WireAddr) (n : Nat) (s : State) : Host.Outcome State Fault Refusal :=
  .next (orBusFailure (transmitAndReceive (Opcode.readData :: be3 a) n 0 s) id)

/-- FastRead 0x0B (R174): header, dummy byte, n bytes in; in READ_TXN the operation ends with OK and the bytes received, in
order (R25, R284), or with BUS_FAILURE and no data (R286). -/
def execFastRead (a : WireAddr) (n : Nat) (s : State) : Host.Outcome State Fault Refusal :=
  let r := transmitAndReceive (Opcode.fastRead :: be3 a) n s.params.fastReadDummy s
  .next (orBusFailure r (continueIn .readTxn (respondOk r.rx)))

/-- READ, host op 0x02 (R280), its CHECK row of R25: an empty buffer is EMPTY_BUFFER before any bus activity (R281), another goes
on to READ_TXN with no busy wait (R283). The raise in CHECK is R25, R302 and R306 against R312: DESIGN CHOICE (log 32). A request
that breaks R139 is refused. -/
def execHostRead (addr len : Word) (s : State) : Host.Outcome State Fault Refusal :=
  if dutyOk s.params addr len.toNat then
    let t := latch HostOp.read addr len [] s
    .next (if len = 0 then raise .emptyBuffer t else setPhase .readTxn (loadRange addr len t))
  else .refused (.hostDuty addr len.toNat)

end Sys2Proof.Machine
end

