-- ==== Sys2Proof/Machine/StatusGate.lean ====
section
/-! DEFINITION. The meanings of the status reads and of WriteEnable (42_commands.md R175 to R177). -/

namespace Sys2Proof.Machine

/-- ReadStatusRegister1 0x05 (R175): `read_status(1)`, with the outcome of POLL or of WELCHK (R25). -/
def execReadStatusRegister1 (s : State) : Host.Outcome State Fault Refusal :=
  .next (readStatus 1 s (statusOutcome s))

/-- ReadStatusRegister2 0x35 (R176): `read_status(2)`. No bit is interpreted (R27) and no rule of R25 calls it: the call returns,
or is a BUS_FAILURE. -/
def execReadStatusRegister2 (s : State) : Host.Outcome State Fault Refusal :=
  .next (readStatus 2 s fun r => orBusFailure r id)

/-- WriteEnable 0x06 (R177): in WREN, on to WELCHK (R25). -/
def execWriteEnable (s : State) : Host.Outcome State Fault Refusal :=
  .next (orBusFailure (transmitAndReceive [Opcode.writeEnable] 0 0 s) (continueIn .wren (setPhase .welchk)))

end Sys2Proof.Machine
end

