-- ==== Sys2Proof/Machine/Dispatch.lean ====
section
/-! DEFINITION. The dispatch: one arm per instruction, each one call of its meaning. -/

namespace Sys2Proof.Machine

/-- The meaning of an instruction. -/
def exec (i : Instr) (s : State) : Host.Outcome State Fault Refusal :=
  match i with
  | .identification => Sys2Proof.Machine.execIdentification s
  | .pageProgram a payload => Sys2Proof.Machine.execPageProgram a payload s
  | .readData a n => Sys2Proof.Machine.execReadData a n s
  | .fastRead a n => Sys2Proof.Machine.execFastRead a n s
  | .readStatusRegister1 => Sys2Proof.Machine.execReadStatusRegister1 s
  | .readStatusRegister2 => Sys2Proof.Machine.execReadStatusRegister2 s
  | .writeEnable => Sys2Proof.Machine.execWriteEnable s
  | .sectorErase a => Sys2Proof.Machine.execSectorErase a s
  | .block32Erase a => Sys2Proof.Machine.execBlock32Erase a s
  | .block64Erase a => Sys2Proof.Machine.execBlock64Erase a s
  | .chipErase => Sys2Proof.Machine.execChipErase s
  | .enableReset => Sys2Proof.Machine.execEnableReset s
  | .reset => Sys2Proof.Machine.execReset s
  | .hostInit => Sys2Proof.Machine.execHostInit s
  | .hostRead addr len => Sys2Proof.Machine.execHostRead addr len s
  | .hostWrite addr wdata => Sys2Proof.Machine.execHostWrite addr wdata s
  | .hostErase addr len => Sys2Proof.Machine.execHostErase addr len s
  | .hostChipErase => Sys2Proof.Machine.execHostChipErase s

end Sys2Proof.Machine
end

