-- ==== Sys2Proof/Machine/Sequencer.lean ====
section
/-! DEFINITION. The sequencer (10_state.md R24, R25): which instruction the engine's next step runs, the steps of the phases that
run none, and how an instruction is put where the next step takes it. -/

namespace Sys2Proof.Machine

/-! The phases with no bus transaction. -/

/-- CHUNK (R25, R241): the chunk's size, then the busy wait. -/
def chunkStep (s : State) : State :=
  startPoll .wren { s with regs := { s.regs with chunk := BitVec.ofNat 9 (chunkSize s.params s.regs.cur s.regs.rem) } }

/-- UNIT (R25, R262): the erase unit, then the busy wait; NO_ERASE_UNIT if no row of R262 holds (R265). -/
def unitStep (s : State) : State :=
  match selectUnit s.params s.regs.cur s.regs.rem with
  | some u => startPoll .wren { s with regs := { s.regs with unit := u } }
  | none => raise .noEraseUnit s

/-- SLEEP (R25, R320): one `Sleep` event, then POLL. -/
def sleepStep (s : State) : State := setPhase .poll (record .sleep s)

/-- The loop's test: `rem = 0` gives OK, else the next chunk or unit (R25). -/
def loopTo (p : Phase) (s : State) : State := if s.regs.rem = 0 then respondOk [] s else setPhase p s

/-- ADVANCE of WRITE (R243). -/
def advanceWrite (s : State) : State :=
  let c := s.regs.chunk.setWidth 32
  loopTo .chunk { s with regs := { s.regs with cur := addrAdd s.params s.regs.cur c, idx := s.regs.idx + c, rem := s.regs.rem - c } }

/-- ADVANCE of ERASE (R264). -/
def advanceErase (s : State) : State :=
  let n := BitVec.ofNat 32 (s.regs.unit.size s.params)
  loopTo .unit { s with regs := { s.regs with cur := addrAdd s.params s.regs.cur n, rem := s.regs.rem - n } }

/-- ADVANCE (R25): by the operation; CHIP_ERASE changes nothing and ends. Another operation has no rule there (log 12). -/
def advanceStep (s : State) : Host.Outcome State Fault Refusal :=
  if s.regs.op = HostOp.write then .next (advanceWrite s)
  else if s.regs.op = HostOp.erase then .next (advanceErase s)
  else if s.regs.op = HostOp.chipErase then .next (respondOk [] s)
  else .fault (.noPhaseRule .advance)

/-- IDLE (R25, R130): accept the offered request, or stay when none is offered (log 8). A request that breaks the host's duty is
refused and no step is taken for it (R139, log 10); a WRITE record without its data is no request (log 11). -/
def idleStep (s : State) : Host.Outcome State Fault Refusal :=
  match s.env.reqs with
  | [] => .next s
  | r :: rest =>
    if requestDutyOk s.params r = false then .refused (.hostDuty r.addr r.len.toNat)
    else if requestComplete r = false then .refused .malformedRequest
    else .next (accept r rest s)

/-! The instruction of a phase. -/

/-- The mutating command of MUT (R25), by the operation. -/
def mutatingInstr (p : Params) (r : Regs) : Option Instr :=
  if r.op = HostOp.write then some (.pageProgram (wireAddr p r.cur) (payload r))
  else if r.op = HostOp.erase then some (eraseInstr r.unit (wireAddr p r.cur))
  else if r.op = HostOp.chipErase then some .chipErase
  else none

/-- The wire command that the engine issues in its phase (R25), with the operands it assembles from its registers. -/
def phaseInstr (s : State) : Option Instr :=
  match s.phase with
  | .idTxn => some .identification
  | .poll => some .readStatusRegister1
  | .rsten => some .enableReset
  | .rst => some .reset
  | .wren => some .writeEnable
  | .welchk => some .readStatusRegister1
  | .mutate => mutatingInstr s.params s.regs
  | .readTxn => some (.fastRead (wireAddr s.params s.regs.cur) s.regs.rem.toNat)
  | _ => none

/-- The words of the latched request (R101), which CHECK decodes. -/
def latchedWords (r : Regs) : Words := .request (requestHeader r.op r.reqAddr r.reqLen ++ r.wbuf)

/-- What the next step is: an instruction to run, or a step with no instruction. -/
inductive Fetched where
  | run (i : Instr) (s : State)
  | done (o : Host.Outcome State Fault Refusal)
  deriving Repr

/-- CHECK (R25, R133): dispatch on the decoded request; a reserved code is ILLEGAL_REQUEST with no bus activity (R134). R312 says
that CHECK raises nothing, while R25, R302 and R306 have it raise ILLEGAL_REQUEST, EMPTY_BUFFER and MISALIGNED, and no ruling
settles it: DESIGN CHOICE, CHECK raises (log 32). -/
def fetchCheck (s : State) : Fetched :=
  match decode s.params (latchedWords s.regs) with
  | .ok i => .run i s
  | .error (.reservedOp _) => .done (.next (raise .illegalRequest s))
  | .error _ => .done (.refused .malformedRequest)

/-- An internal call (log 3): its window is decoded and run, and the call is taken off. -/
def fetchCall (w : Window) (s : State) : Fetched :=
  match decode s.params (.window w) with
  | .ok i => .run i { s with call := none }
  | .error e => .done (.refused (.notAFrame e))

/-- A phase that issues a wire command: the command, or the fault of a MUT without one (log 12). -/
def fetchIssue (s : State) : Fetched :=
  match phaseInstr s with
  | some i => .run i s
  | none => .done (.fault (.noPhaseRule s.phase))

/-- The next step, by the phase (R25). -/
def fetch (s : State) : Fetched :=
  match s.phase with
  | .idle =>
    match s.call with
    | some w => fetchCall w s
    | none => .done (idleStep s)
  | .check => fetchCheck s
  | .chunk => .done (.next (chunkStep s))
  | .unit => .done (.next (unitStep s))
  | .sleep => .done (.next (sleepStep s))
  | .advance => .done (advanceStep s)
  | .resp => .done (.next (deliver s))
  | .halted => .done (.fault .halted)
  | .idTxn => fetchIssue s
  | .poll => fetchIssue s
  | .rsten => fetchIssue s
  | .rst => fetchIssue s
  | .wren => fetchIssue s
  | .welchk => fetchIssue s
  | .mutate => fetchIssue s
  | .readTxn => fetchIssue s

/-! Where the next instruction is put (log 2). -/

/-- A wire command: an internal call of its window, in IDLE. -/
def placeCall (w : Window) (s : State) : State :=
  { s with phase := .idle, halted := false, call := some w, env := { s.env with resetIn := false } }

/-- A host operation: the request latched, in CHECK. -/
def placeRequest (r : Request) (s : State) : State :=
  setPhase .check
    (latch r.op r.addr r.len (if r.op = HostOp.write then r.wdata else [])
      { s with halted := false, env := { s.env with resetIn := false } })

end Sys2Proof.Machine
end

