-- ==== Sys2Proof/Machine/Step.lean ====
section
/-! DEFINITION. One step of the engine (10_state.md R25), and the placing of a table word where the step takes its next
instruction. -/

namespace Sys2Proof.Machine

/-- Engine reset takes effect between two steps, at any time (R340, log 17); else the phase's step (R25). -/
def step (s : State) : Host.Outcome State Fault Refusal :=
  if s.env.resetIn then .next (engineReset s)
  else
    match fetch s with
    | .run i t => exec i t
    | .done o => o

/-- s with the instruction of a table word placed where `step` takes its next instruction (log 2). -/
def State.withFetchWord (s : State) (nbits w : Nat) : State :=
  match tableLayout s.params nbits w with
  | .inl win => placeCall win s
  | .inr r => placeRequest r s

end Sys2Proof.Machine
end

