-- ==== Sys2Proof/Safety.lean ====
section
/-! DEFINITION. What counts as a safe run, in the terms the statements use: properties of the trace (20_memory.md R82 to R85,
70_reset_and_hazards.md R350, R351), the invariant of the sequencer's registers, the schedules that WRITE and ERASE carry out,
and what a device that keeps the facts of R91 and R94 answers. -/

namespace Sys2Proof.Machine

/-! ## Windows -/

/-- The bytes a segment was to drive in a write (R153). -/
def Seg.written : Seg → List Byte
  | .w bytes _ => bytes
  | .r _ _ _ => []

/-- The number of bytes a segment was to clock in (R154). -/
def Seg.rxLen : Seg → Nat
  | .w _ _ => 0
  | .r n _ _ => n

/-- The window that a list of segments fills (R150). -/
def windowOf (gs : List Seg) : Window := ⟨gs.flatMap Seg.written, (gs.map Seg.rxLen).sum⟩

/-- The bytes clocked in a window (R74, R362). -/
def clocked (w : Window) : Nat := w.out.length + w.rxLen

/-- A window's clocking time in nanoseconds, WORD_BITS clocks a byte at SCLK_HZ: 800 ns a byte at 8 bits and 10 MHz (R360). No step
depends on it. -/
def clockingNs (p : Params) (w : Window) : Nat := clocked w * p.wordBits * 1000000000 / p.sclkHz

/-- The thirteen wire commands (R118), as against the five host operations. -/
def isWire : Instr → Bool
  | .identification => true
  | .pageProgram _ _ => true
  | .readData _ _ => true
  | .fastRead _ _ => true
  | .readStatusRegister1 => true
  | .readStatusRegister2 => true
  | .writeEnable => true
  | .sectorErase _ => true
  | .block32Erase _ => true
  | .block64Erase _ => true
  | .chipErase => true
  | .enableReset => true
  | .reset => true
  | .hostInit => false
  | .hostRead _ _ => false
  | .hostWrite _ _ => false
  | .hostErase _ _ => false
  | .hostChipErase => false

/-- The segments of a wire command, from the "segments" column of R107, a segment of no byte left out (R158, R160); a host operation
has none. -/
def segmentsOf (p : Params) : Instr → List SegReq
  | .identification => .w (0x90 :: List.replicate p.idPlaceholders p.idPlaceholderValue) :: readUnlessZero p.idRx
  | .pageProgram a data => .w (0x02 :: be3 a) :: writeUnlessEmpty data
  | .readData a n => .w (0x03 :: be3 a) :: readUnlessZero n
  | .fastRead a n => .w (0x0B :: be3 a) :: (writeUnlessEmpty (List.replicate p.fastReadDummy p.dummyValue) ++ readUnlessZero n)
  | .readStatusRegister1 => [.w [0x05], .r 1]
  | .readStatusRegister2 => [.w [0x35], .r 1]
  | .writeEnable => [.w [0x06]]
  | .sectorErase a => [.w (0x20 :: be3 a)]
  | .block32Erase a => [.w (0x52 :: be3 a)]
  | .block64Erase a => [.w (0xD8 :: be3 a)]
  | .chipErase => [.w [0xC7]]
  | .enableReset => [.w [0x66]]
  | .reset => [.w [0x99]]
  | .hostInit => []
  | .hostRead _ _ => []
  | .hostWrite _ _ => []
  | .hostErase _ _ => []
  | .hostChipErase => []

/-! ## Events -/

/-- The opcode of a transaction: the first byte its first segment was to drive (R105). -/
def Event.opcode : Event → Option Byte
  | .txn (.w (op :: _) _ :: _) => some op
  | _ => none

/-- The transactions of the trace carry opcodes of the map only (R119). -/
def Event.opcodeKnown : Event → Bool
  | .txn (.w (op :: _) _ :: _) => Opcode.wireOpcodes.contains op
  | .txn _ => false
  | _ => true

/-- The opcodes of the mutating commands (R350). -/
def mutatingOpcodes : List Byte :=
  [Opcode.pageProgram, Opcode.sectorErase, Opcode.block32Erase, Opcode.block64Erase, Opcode.chipErase]

/-- A `Txn` whose opcode is a mutating one (R350). -/
def Event.mutating (e : Event) : Bool :=
  match e.opcode with
  | some op => mutatingOpcodes.contains op
  | none => false

/-- A ReadStatusRegister1 transaction that was answered with BUSY = 0 (R84). -/
def Event.readyPoll : Event → Bool
  | .txn [.w tx true, .r 1 [b] true] => tx == [Opcode.readStatusRegister1] && !busy b
  | _ => false

/-- A WriteEnable transaction that succeeded (R84). -/
def Event.enabled : Event → Bool
  | .txn [.w tx true] => tx == [Opcode.writeEnable]
  | _ => false

/-- A ReadStatusRegister1 transaction that was answered with WEL = 1 (R84). -/
def Event.gatePassed : Event → Bool
  | .txn [.w tx true, .r 1 [b] true] => tx == [Opcode.readStatusRegister1] && wel b
  | _ => false

/-- The three events before a mutating transaction, newest first: the gate's status read, the WriteEnable, the poll that read
BUSY = 0 (R84). -/
def guardedBy : List Event → Bool
  | g :: w :: p :: _ => g.gatePassed && w.enabled && p.readyPoll
  | _ => false

/-- Every mutating transaction of a trace, newest event first, has its guard right before it (R84, R85, R350). -/
def guarded : List Event → Bool
  | [] => true
  | e :: older => (!e.mutating || guardedBy older) && guarded older

/-- R84 and R350 for the whole trace. -/
def mutationsGuarded (s : State) : Bool := guarded s.trace.reverse

/-- How far the handshake before a mutating transaction has come in the phases that lead to it: the newest events are the poll that
read BUSY = 0, then the WriteEnable, then the gate's read (R84). -/
def handshakeSoFar (s : State) : Bool :=
  match s.phase, s.trace.reverse with
  | .wren, p :: _ => p.readyPoll
  | .wren, _ => false
  | .welchk, w :: p :: _ => w.enabled && p.readyPoll
  | .welchk, _ => false
  | .mutate, evs => guardedBy evs
  | _, _ => true

/-- R351: a PageProgram stays in its page: its address within the page and its length make at most PAGE_SIZE. -/
def Event.pageFits (p : Params) : Event → Bool
  | .txn (.w [op, a2, a1, a0] _ :: .w data _ :: _) => op != Opcode.pageProgram || fitsPage p (ofBe3 a2 a1 a0) data
  | _ => true

/-- R351 for the whole trace. -/
def pagesFit (s : State) : Bool := s.trace.all (Event.pageFits s.params)

/-! ## Requests and responses along the trace (R83, R137, R141) -/

/-- Where a trace stands: between two requests, inside one, or after a halt. -/
inductive RunState where
  | between
  | inside
  | ended
  deriving DecidableEq, Repr

/-- One event more: a request opens only between two requests; transactions and sleeps come inside one; a response closes it, a
halt ends it; anything else is out of order (R83, R137, R141, R313). -/
def RunState.next : RunState → Event → Option RunState
  | .between, .accept _ => some .inside
  | .inside, .txn _ => some .inside
  | .inside, .sleep => some .inside
  | .inside, .respond _ _ _ => some .between
  | .inside, .halt => some .ended
  | _, _ => none

/-- Where a whole trace stands, oldest event first; `none` if an event is out of order. -/
def runState (tr : List Event) : Option RunState :=
  tr.foldl (fun a e => a.bind fun r => r.next e) (some .between)

/-- The place in the trace that each phase stands at. -/
def Phase.runState : Phase → RunState
  | .idle => .between
  | .halted => .ended
  | _ => .inside

/-- The trace is in order, and the phase is where the trace says. -/
def requestsInOrder (s : State) : Bool := runState s.trace == some s.phase.runState

/-! ## The invariant of the sequencer -/

/-- The phases of the chunk and unit loops: those a mutating operation passes through after CHECK (R25). POLL and SLEEP belong to
the loops when `cont` is WREN. -/
def inLoop (s : State) : Bool :=
  match s.phase with
  | .chunk => true
  | .unit => true
  | .poll => s.regs.cont == .wren
  | .sleep => s.regs.cont == .wren
  | .wren => true
  | .welchk => true
  | .mutate => true
  | .advance => true
  | _ => false

/-- WRITE, ERASE and CHIP_ERASE. -/
def mutatingOp (op : Byte) : Bool := op == HostOp.write || op == HostOp.erase || op == HostOp.chipErase

/-- The operations that can be in each phase (R25). -/
def opFitsPhase (s : State) : Bool :=
  match s.phase with
  | .idTxn => s.regs.op == HostOp.init
  | .rsten => s.regs.op == HostOp.init
  | .rst => s.regs.op == HostOp.init
  | .readTxn => s.regs.op == HostOp.read
  | .chunk => s.regs.op == HostOp.write
  | .unit => s.regs.op == HostOp.erase
  | .poll => if s.regs.cont = .rsten then s.regs.op == HostOp.init else mutatingOp s.regs.op
  | .sleep => if s.regs.cont = .rsten then s.regs.op == HostOp.init else mutatingOp s.regs.op
  | .wren => mutatingOp s.regs.op
  | .welchk => mutatingOp s.regs.op
  | .mutate => mutatingOp s.regs.op
  | .advance => mutatingOp s.regs.op
  | _ => true

/-- A request is in progress (R137). -/
def inRequest (p : Phase) : Bool := p != .idle && p != .halted && p != .resp

/-- While a request is in progress, its latched fields are one that the port accepts (R21, R130, R139). -/
def requestLatched (s : State) : Bool :=
  !inRequest s.phase ||
    ((if s.regs.op = HostOp.write then s.regs.wbuf.length == s.regs.reqLen.toNat else s.regs.wbuf == []) &&
      requestDutyOk s.params ⟨s.regs.op, s.regs.reqAddr, s.regs.reqLen, s.regs.wbuf⟩)

/-- WRITE inside its loop (R243, R244): bytes are left, `idx = req_len - rem`, `cur = req_addr + idx`, and outside CHUNK the chunk
has the size of R241. -/
def writeLoopOk (s : State) : Bool :=
  !(inLoop s && s.regs.op == HostOp.write) ||
    (s.regs.rem != 0 && s.regs.idx.toNat + s.regs.rem.toNat == s.regs.reqLen.toNat &&
      s.regs.cur == s.regs.reqAddr + s.regs.idx &&
      (s.phase == .chunk || s.regs.chunk.toNat == chunkSize s.params s.regs.cur s.regs.rem))

/-- ERASE inside its loop (R264, R265): bytes are left, `cur` and `rem` are multiples of SECTOR_SIZE, `cur = end - rem`, and outside UNIT
the unit is the one R262 selects. -/
def eraseLoopOk (s : State) : Bool :=
  !(inLoop s && s.regs.op == HostOp.erase) ||
    (s.regs.rem != 0 && s.regs.rem.toNat ≤ s.regs.reqLen.toNat && eraseAligned s.params s.regs.cur s.regs.rem &&
      s.regs.cur == s.regs.reqAddr + (s.regs.reqLen - s.regs.rem) &&
      (s.phase == .unit || selectUnit s.params s.regs.cur s.regs.rem == some s.regs.unit))

/-- READ before its transaction (R25): the whole range is left and it is not empty. -/
def readReady (s : State) : Bool :=
  s.phase != .readTxn || (s.regs.rem != 0 && s.regs.rem == s.regs.reqLen && s.regs.cur == s.regs.reqAddr)

/-- R205, R321: with MAX_POLLS = n, a busy wait that goes on has made fewer than n polls. -/
def pollsBounded (s : State) : Bool :=
  match s.params.maxPolls with
  | none => true
  | some n => !(s.phase == .poll || s.phase == .sleep) || decide (s.regs.polls < n)

/-- R29: OK goes with the cause NONE, ERR with another cause and no data; only READ's OK carries data, and only while the response
waits in RESP (R34). -/
def respWellFormed (s : State) : Bool :=
  (match s.resp.status with
    | .ok => s.resp.cause == .none
    | .err => s.resp.cause != .none && s.resp.data == []) &&
  (s.resp.data == [] || (s.phase == .resp && s.regs.op == HostOp.read))

/-- The invariant that every step keeps and that reset has. -/
structure EngineInv (s : State) : Prop where
  /-- R152: between two steps chip-select is high. -/
  csHigh : s.csN = true
  /-- R308: `resp_valid` is high only inside the step of RESP (log 13). -/
  respQuiet : s.resp.valid = false
  /-- R30: `halted` is 1 exactly in HALTED. -/
  haltedPhase : s.halted = (s.phase == .halted)
  /-- No host operation makes an internal call (log 3). -/
  noCall : s.call = none
  /-- R8 to R12: the parameters are ones that a block can have (log 18). -/
  paramsOk : s.params.wf = true
  opPhase : opFitsPhase s = true
  latched : requestLatched s = true
  writeLoop : writeLoopOk s = true
  eraseLoop : eraseLoopOk s = true
  readRange : readReady s = true
  pollBound : pollsBounded s = true
  response : respWellFormed s = true

/-! ## The schedules of WRITE and ERASE -/

/-- The chunks of the loop of R240, from `cur` with the bytes `data` to go: each PageProgram's wire address and payload. `fuel`
bounds the number of chunks. -/
def writeSchedule (p : Params) : Nat → Word → List Byte → List (WireAddr × List Byte)
  | 0, _, _ => []
  | fuel + 1, cur, data =>
    if data = [] then []
    else
      let c := min (p.pageSize - cur.toNat % p.pageSize) data.length
      (wireAddr p cur, data.take c) :: writeSchedule p fuel (cur + BitVec.ofNat 32 c) (data.drop c)

/-- The PageProgram transactions that WRITE is to issue (R240): a chunk holds at least one byte, so `data.length` of fuel is
enough. -/
def writePlan (p : Params) (addr : Word) (data : List Byte) : List (WireAddr × List Byte) :=
  writeSchedule p data.length addr data

/-- The units of the loop of R260, from `cur` with `rem` bytes to go: each erase command's wire address and unit. -/
def eraseSchedule (p : Params) : Nat → Word → Word → List (WireAddr × EraseUnit)
  | 0, _, _ => []
  | fuel + 1, cur, rem =>
    if rem = 0 then []
    else
      match selectUnit p cur rem with
      | none => []
      | some u =>
        (wireAddr p cur, u) ::
          eraseSchedule p fuel (cur + BitVec.ofNat 32 (u.size p)) (rem - BitVec.ofNat 32 (u.size p))

/-- The erase transactions that ERASE is to issue (R260): a unit is at least a sector, so `len / SECTOR_SIZE` of fuel is enough. -/
def erasePlan (p : Params) (addr len : Word) : List (WireAddr × EraseUnit) :=
  eraseSchedule p (len.toNat / p.sectorSize) addr len

/-- The bytes of a unit list. -/
def unitBytes (p : Params) (us : List (WireAddr × EraseUnit)) : Nat := (us.map fun x => x.2.size p).sum

/-- The units lie one after the other from `a` on, each at a multiple of its size (R267). -/
def contiguousFrom (p : Params) : Nat → List (WireAddr × EraseUnit) → Bool
  | _, [] => true
  | a, (w, u) :: us =>
    w == wireAddr p (BitVec.ofNat 32 a) && a % u.size p == 0 && contiguousFrom p (a + u.size p) us

/-! What the current request has put on the bus. -/

/-- The events since the last `Accept`, oldest first. -/
def currentRun (s : State) : List Event :=
  (s.trace.reverse.takeWhile fun e => match e with
    | .accept _ => false
    | _ => true).reverse

/-- The PageProgram that a transaction carried out in full: wire address and payload. -/
def Event.programmed : Event → Option (WireAddr × List Byte)
  | .txn [.w [op, a2, a1, a0] true, .w p true] =>
    if op = Opcode.pageProgram then some (ofBe3 a2 a1 a0, p) else none
  | _ => none

/-- The unit of an erase opcode (R178 to R180). -/
def unitOfOpcode (op : Byte) : Option EraseUnit :=
  if op = Opcode.sectorErase then some .sector
  else if op = Opcode.block32Erase then some .block32
  else if op = Opcode.block64Erase then some .block64
  else none

/-- The unit erase that a transaction carried out in full: wire address and unit. -/
def Event.erased : Event → Option (WireAddr × EraseUnit)
  | .txn [.w [op, a2, a1, a0] true] => (unitOfOpcode op).map fun u => (ofBe3 a2 a1 a0, u)
  | _ => none

/-- The page programs of the current request so far, in issue order (R247). -/
def programsSoFar (s : State) : List (WireAddr × List Byte) := (currentRun s).filterMap Event.programmed

/-- The unit erases of the current request so far, in issue order (R267). -/
def erasesSoFar (s : State) : List (WireAddr × EraseUnit) := (currentRun s).filterMap Event.erased

/-- The bytes of the WRITE buffer that the finished chunks have carried: `idx`, and in ADVANCE the chunk just sent too (R243). -/
def writtenBytes (s : State) : Nat :=
  if s.phase = .advance then s.regs.idx.toNat + s.regs.chunk.toNat else s.regs.idx.toNat

/-- WRITE has so far issued exactly the head of its plan, and after OK the whole plan (R240, R249). -/
def WriteProgress (s : State) : Prop :=
  s.regs.op = HostOp.write →
    (s.phase = .check → programsSoFar s = []) ∧
    (inLoop s = true →
      programsSoFar s ++
        writePlan s.params (s.regs.reqAddr + BitVec.ofNat 32 (writtenBytes s)) (s.regs.wbuf.drop (writtenBytes s)) =
          writePlan s.params s.regs.reqAddr s.regs.wbuf) ∧
    (s.phase = .resp → s.resp.status = .ok → programsSoFar s = writePlan s.params s.regs.reqAddr s.regs.wbuf)

/-- The bytes still to erase: `rem`, and in ADVANCE less the unit just erased (R264). -/
def eraseLeft (s : State) : Word :=
  if s.phase = .advance then s.regs.rem - BitVec.ofNat 32 (s.regs.unit.size s.params) else s.regs.rem

/-- ERASE has so far issued exactly the head of its plan, and after OK the whole plan (R260, R270). -/
def EraseProgress (s : State) : Prop :=
  s.regs.op = HostOp.erase →
    (s.phase = .check → erasesSoFar s = []) ∧
    (inLoop s = true →
      erasesSoFar s ++ erasePlan s.params (s.regs.reqAddr + (s.regs.reqLen - eraseLeft s)) (eraseLeft s) =
        erasePlan s.params s.regs.reqAddr s.regs.reqLen) ∧
    (s.phase = .resp → s.resp.status = .ok → erasesSoFar s = erasePlan s.params s.regs.reqAddr s.regs.reqLen)

/-! ## The states that statements speak of -/

/-- s after one chip-select window of these segments and nothing else (R150, R152): chip-select high, the bytes that went out on the data
output (R153, R154, R157), the event appended, one answer used for each executed segment. -/
def afterWindow (gs : List Seg) (s : State) : State :=
  { s with csN := true, dataOut := drivenBytes s.params.rxFill s.env.draws gs, trace := s.trace ++ [.txn gs],
           env := s.env.skip gs.length }

/-- s with the response (status, cause, data) set and RESP next (R135, R308). -/
def ending (st : Status) (c : Cause) (data : List Byte) (s : State) : State :=
  { s with phase := .resp, resp := { s.resp with status := st, cause := c, data := data } }

/-- s with `phase <- q` if it is in phase p, else s (R25: only that phase goes on). -/
def goingOn (p q : Phase) (s : State) : State := if s.phase = p then { s with phase := q } else s

/-- The state after the request in CHECK was answered at once (R135, R136): its response delivered, IDLE again, and no event but
the `Respond`. -/
def answeredAtOnce (st : Status) (c : Cause) (s : State) : State :=
  { s with phase := .idle, resp := { s.resp with valid := false, status := st, cause := c, data := [] },
           trace := s.trace ++ [.respond st c []] }

/-! ## The environment's answers -/

/-- The next n segments succeed. -/
def answersOk (e : Env) (n : Nat) : Prop := ∀ k < n, e.okAt k = true

/-- A script in which the device answers one status read with each byte of the list, on a bus that does not fail: one answer for
the opcode's segment, one for the byte's (R175). -/
def statusScript (bytes : List Byte) : List SegAnswer := bytes.flatMap fun b => [⟨true, []⟩, ⟨true, [b]⟩]

/-- The transaction of a status read answered with a byte. -/
def statusTxn (b : Byte) : Event := .txn [.w [Opcode.readStatusRegister1] true, .r 1 [b] true]

/-- The events of polls that read the bytes of the list, a `Sleep` after each (R203, R204). -/
def busyPolls (bytes : List Byte) : List Event := bytes.flatMap fun b => [statusTxn b, .sleep]

/-- R94, a fact of the device that a model may assume: a successful Identification is answered with manufacturer 0xEF, then device
0x17. -/
def Event.identifiesAsStated : Event → Bool
  | .txn [.w (op :: _) true, .r _ rx true] => op != Opcode.identification || rx == [0xEF, 0x17]
  | _ => true

/-- R91, a fact of the device that a model may assume: the status read right after a successful WriteEnable shows WEL = 1. -/
def latchSetAfterEnable : List Event → Bool
  | e :: g :: rest =>
    (!e.enabled || (match g with
      | .txn [.w _ true, .r 1 [b] true] => wel b
      | _ => true)) && latchSetAfterEnable (g :: rest)
  | _ => true

/-! ## Registers that carry nothing into the next request -/

/-- Two states agree on everything but the working registers and the response registers that are unspecified outside an operation
(R23, R137): those may differ. -/
def agreeOutsideRegs (s t : State) : Bool :=
  s.params == t.params && s.phase == t.phase && s.resp.valid == t.resp.valid && s.halted == t.halted &&
    s.csN == t.csN && s.dataOut == t.dataOut && s.trace == t.trace && s.call == t.call && s.env == t.env

/-- Two outcomes that the outside cannot tell apart: states with the same phase, ports and trace, or the same stop. -/
def sameOutside : Host.Outcome State Fault Refusal → Host.Outcome State Fault Refusal → Prop
  | .next s, .next t => agreeOutsideRegs s t = true
  | .fault f, .fault g => f = g
  | .refused f, .refused g => f = g
  | _, _ => False

end Sys2Proof.Machine
end

