-- ==== Sys2Proof/Certificates/Slice0/Obligations.lean ====
section
/-! DEFINITION. The statements for the provers. Each docstring names the rules of spec/ it formalises. -/

open Sys2Proof Sys2Proof.Machine

/-! ## Encoding -/

/-- O1 (R101, R107): with any parameters, every instruction whose operands its encoding admits is read back from its own words. -/
def Obligations.DecodeEncodeRoundTrip : Prop :=
  ∀ (p : Params) (i : Instr), i.WellFormed p = true → decode p (encode p i) = .ok i

/-- O2 (R101, R107, R112, R116, R178 to R180): whatever the decoder reads has operands that the encoding admits. That the decoder
refuses a payload that leaves its page and a unit at no multiple of its size is the model's choice (log 24). -/
def Obligations.DecodedIsWellFormed : Prop :=
  ∀ (p : Params) (w : Words) (i : Instr), decode p w = .ok i → i.WellFormed p = true

/-- O3 (R107, R118): a frame has one reading: a window that decodes is the window its instruction encodes to. -/
def Obligations.WindowEncodesBack : Prop :=
  ∀ (p : Params) (w : Window) (i : Instr), decode p (.window w) = .ok i → encode p i = .window w

/-- O4 (R101, R103, R140): a request that decodes is the request its operation encodes to, but for the addr and len fields of INIT
and CHIP_ERASE, which may hold anything in exactly nine bytes. -/
def Obligations.RequestEncodesBack : Prop :=
  ∀ p : Params,
    (∀ (bytes : List Byte) (i : Instr), decode p (.request bytes) = .ok i →
      (i ≠ .hostInit → i ≠ .hostChipErase → encode p i = .request bytes) ∧
      (i = .hostInit ∨ i = .hostChipErase → bytes.length = 9)) ∧
    (∀ addr len : Word, decode p (.request (requestHeader 0x01 addr len)) = .ok .hostInit ∧
      decode p (.request (requestHeader 0x05 addr len)) = .ok .hostChipErase)

/-- O5 (95_test_vectors.md F1, F2, F5, F7, F8, X1 to X7, E10, E14, H1): with the spec's default parameters, words written out by
the spec decode to the instruction they stand for: a frame of each of the thirteen commands (F8; F1, F2, F5, F7 and X6 give the
operand bytes, R173's example those of ReadData), a request of each operation (X1 to X6, E10, E14), and the reserved code 0x07 is
refused (H1, R120). X7's request is that of X6. -/
def Obligations.SpecWordsDecode : Prop :=
  let d := decode Params.default
  (d (.window ⟨[0x90, 0x00, 0x00, 0x00, 0x00], 2⟩) = .ok .identification ∧
    d (.window ⟨[0x02, 0x00, 0x01, 0x00, 0x11, 0x22], 0⟩) = .ok (.pageProgram 0x000100 [0x11, 0x22]) ∧
    d (.window ⟨[0x03, 0x00, 0x00, 0x10], 2⟩) = .ok (.readData 0x000010 2) ∧
    d (.window ⟨[0x0B, 0x00, 0x01, 0x00, 0x00], 2⟩) = .ok (.fastRead 0x000100 2) ∧
    d (.window ⟨[0x0B, 0x34, 0x56, 0x78, 0x00], 1⟩) = .ok (.fastRead 0x345678 1) ∧
    d (.window ⟨[0x05], 1⟩) = .ok .readStatusRegister1 ∧
    d (.window ⟨[0x35], 1⟩) = .ok .readStatusRegister2 ∧
    d (.window ⟨[0x06], 0⟩) = .ok .writeEnable ∧
    d (.window ⟨[0x20, 0x01, 0x20, 0x00], 0⟩) = .ok (.sectorErase 0x012000) ∧
    d (.window ⟨[0x52, 0x00, 0x80, 0x00], 0⟩) = .ok (.block32Erase 0x008000) ∧
    d (.window ⟨[0xD8, 0x01, 0x00, 0x00], 0⟩) = .ok (.block64Erase 0x010000) ∧
    d (.window ⟨[0xC7], 0⟩) = .ok .chipErase ∧
    d (.window ⟨[0x66], 0⟩) = .ok .enableReset ∧
    d (.window ⟨[0x99], 0⟩) = .ok .reset) ∧
  (d (.request [0x04, 0x00, 0x00, 0x00, 0x00, 0x00, 0x00, 0x10, 0x00]) = .ok (.hostErase 0 4096) ∧
    d (.request [0x04, 0x00, 0x00, 0x00, 0x00, 0x00, 0x01, 0x00, 0x00]) = .ok (.hostErase 0 65536) ∧
    d (.request [0x04, 0x00, 0x00, 0x00, 0x64, 0x00, 0x00, 0x10, 0x00]) = .ok (.hostErase 100 4096) ∧
    (∀ data : List Byte, data.length = 300 →
      d (.request ([0x03, 0x00, 0x00, 0x00, 0x00, 0x00, 0x00, 0x01, 0x2C] ++ data)) = .ok (.hostWrite 0 data)) ∧
    d (.request [0x02, 0x00, 0x00, 0x00, 0x00, 0x00, 0x00, 0x00, 0x40]) = .ok (.hostRead 0 64) ∧
    d (.request [0x01, 0x00, 0x00, 0x00, 0x00, 0x00, 0x00, 0x00, 0x00]) = .ok .hostInit ∧
    d (.request [0x05, 0x00, 0x00, 0x00, 0x00, 0x00, 0x00, 0x00, 0x00]) = .ok .hostChipErase ∧
    d (.request [0x05, 0xDE, 0xAD, 0xBE, 0xEF, 0x00, 0x00, 0x00, 0x05]) = .ok .hostChipErase) ∧
  d (.request [0x07, 0x00, 0x00, 0x00, 0x00, 0x00, 0x00, 0x00, 0x00]) = .error (.reservedOp 0x07)

/-- O6 (R119): no step puts an opcode outside the map of R118 on the bus. -/
def Obligations.OnlyMapOpcodesOnTheBus : Prop :=
  ∀ s t : State, s.trace.all Event.opcodeKnown = true → step s = .next t → t.trace.all Event.opcodeKnown = true

/-- O7 (R107, R153, R154): with any parameters, the segments that a wire command executes when none fails drive and receive exactly the
window its encoding gives, and what stands on the data output over the window is the bytes driven and then RX_FILL for each byte
received (drivenBytes, from which the model's field dataOut is filled, log 33). -/
def Obligations.SegmentsFillTheEncodedWindow : Prop :=
  ∀ (p : Params) (i : Instr) (e : Env), isWire i = true → i.WellFormed p = true → answersOk e (segmentsOf p i).length →
    ∃ w : Window, encode p i = .window w ∧ windowOf (runSegs (segmentsOf p i) e) = w ∧
      drivenBytes p.rxFill e.draws (runSegs (segmentsOf p i) e) = w.out ++ List.replicate w.rxLen p.rxFill

/-- O8 (R74, R107, R362): with the spec's default parameters, the bytes that a window of each of the thirteen wire commands moves; the
twelve of R74, and ReadData, which R74 does not list (R107, R362). -/
def Obligations.BytesMovedPerTransaction : Prop :=
  let moves := fun (i : Instr) (k : Nat) => ∃ w, encode Params.default i = .window w ∧ clocked w = k
  (∀ i ∈ [Instr.writeEnable, .enableReset, .reset, .chipErase], moves i 1) ∧
  (∀ i ∈ [Instr.readStatusRegister1, .readStatusRegister2], moves i 2) ∧
  moves .identification 7 ∧
  (∀ a, ∀ i ∈ [Instr.sectorErase a, .block32Erase a, .block64Erase a], moves i 4) ∧
  (∀ a data, moves (.pageProgram a data) (4 + data.length)) ∧
  (∀ a n, moves (.fastRead a n) (5 + n)) ∧
  (∀ a n, moves (.readData a n) (4 + n))

/-- O9 (R104, R301): each cause has the code that R301 gives it, the codes 0xB to 0xF stand for no cause, and a response is its status
byte, its cause byte with bits 7:4 zero, and its data. -/
def Obligations.CauseCodesAreTheTable : Prop :=
  (Cause.none.code = 0x0 ∧ Cause.idMismatch.code = 0x1 ∧ Cause.badStatusSelector.code = 0x2 ∧ Cause.misaligned.code = 0x3 ∧
    Cause.badPayloadSize.code = 0x4 ∧ Cause.emptyBuffer.code = 0x5 ∧ Cause.busFailure.code = 0x6 ∧
    Cause.welNotSet.code = 0x7 ∧ Cause.timeout.code = 0x8 ∧ Cause.noEraseUnit.code = 0x9 ∧
    Cause.illegalRequest.code = 0xA) ∧
  (∀ c : Cause, Cause.ofCode c.code = some c) ∧
  (∀ k : BitVec 4, 0xB ≤ k.toNat → Cause.ofCode k = none) ∧
  (∀ r : Response, r.bytes.length = 2 + r.data.length ∧
    r.bytes.head? = some (if r.status = .ok then 0x00 else 0x01) ∧
    (r.bytes.getD 1 0).toNat = r.cause.code.toNat ∧
    r.bytes.drop 2 = r.data)

/-! ## Reset, the step and the host port -/

/-- O10 (10_state.md §9, 00_scope.md R8 to R12): the reset values the spec states. That the parameters stand in the state and hold
the spec's defaults there is the model's choice (log 18), and so is that no byte has been driven (log 33). -/
def Obligations.ResetAsStated : Prop :=
  State.reset.phase = .idle ∧ State.reset.csN = true ∧ State.reset.halted = false ∧ State.reset.resp.valid = false ∧
    State.reset.trace = [] ∧ State.reset.dataOut = [] ∧
    let p := State.reset.params
    (p.pageSize = 256 ∧ p.sectorSize = 4096 ∧ p.block32Size = 32768 ∧ p.block64Size = 65536 ∧ p.ppMin = 1 ∧ p.ppMax = 256) ∧
    (p.addrBits = 32 ∧ p.wireAddrBits = 24 ∧ p.lenBits = 32 ∧ p.capacity = 16777216) ∧
    (p.spiMode = 0 ∧ p.wordBits = 8 ∧ p.sclkHz = 10000000 ∧ p.bitOrder = .msbFirst ∧ p.rxFill = 0x00) ∧
    (p.expectedMfr = 0xEF ∧ p.expectedDev = 0x17 ∧ p.fastReadDummy = 1 ∧ p.dummyValue = 0x00 ∧ p.idPlaceholders = 4 ∧
      p.idPlaceholderValue = 0x00 ∧ p.idRx = 2) ∧
    (p.pollIntervalUs = 1000 ∧ p.maxPolls = none ∧ p.pollFailureMode = .halt)

/-- O11 (R340, R342, R343): engine reset, in whatever phase: IDLE, chip-select high, not halted, no response, no frame and no byte
driven; a held request is still offered, the parameters and the device's answers to come are untouched. That the trace and the
driven bytes start anew is the model's reading (logs 5, 33). -/
def Obligations.EngineResetEffect : Prop :=
  ∀ s : State, s.env.resetIn = true → ∃ t, step s = .next t ∧ t.phase = .idle ∧ t.csN = true ∧ t.halted = false ∧
    t.resp.valid = false ∧ t.trace = [] ∧ t.dataOut = [] ∧ t.call = none ∧ t.params = s.params ∧
    t.env = { s.env with resetIn := false }

/-- O12 (R24, R25, R133): a step runs the decoded instruction. In CHECK it is the one that the latched request's bytes decode to. In a
phase that issues a wire command it is that command, with the operands of R25: Identification in ID_TXN, ReadStatusRegister1 in POLL
and WELCHK, EnableReset in RSTEN, Reset in RST, WriteEnable in WREN; in MUT the PageProgram of `wbuf[idx..idx+chunk)` at `cur` for
WRITE, the unit's erase at `cur` for ERASE, ChipErase for CHIP_ERASE; in READ_TXN the FastRead of `rem` bytes at `cur`. phaseInstr
names these commands. An internal call is the frame in its window, taken off the call slot (log 3). -/
def Obligations.StepRunsTheDecodedInstruction : Prop :=
  (∀ (s : State) (i : Instr), s.env.resetIn = false → s.phase = .check →
    decode s.params (.request (requestHeader s.regs.op s.regs.reqAddr s.regs.reqLen ++ s.regs.wbuf)) = .ok i →
    step s = exec i s) ∧
  (∀ s : State, s.env.resetIn = false →
    let a : WireAddr := BitVec.ofNat 24 (s.regs.cur.toNat % 2 ^ s.params.wireAddrBits.val)
    (s.phase = .idTxn → step s = exec .identification s) ∧
    (s.phase = .poll → step s = exec .readStatusRegister1 s) ∧
    (s.phase = .rsten → step s = exec .enableReset s) ∧
    (s.phase = .rst → step s = exec .reset s) ∧
    (s.phase = .wren → step s = exec .writeEnable s) ∧
    (s.phase = .welchk → step s = exec .readStatusRegister1 s) ∧
    (s.phase = .mutate → s.regs.op = 0x03 →
      step s = exec (.pageProgram a ((s.regs.wbuf.drop s.regs.idx.toNat).take s.regs.chunk.toNat)) s) ∧
    (s.phase = .mutate → s.regs.op = 0x04 →
      step s = exec (match s.regs.unit with
        | .sector => .sectorErase a
        | .block32 => .block32Erase a
        | .block64 => .block64Erase a) s) ∧
    (s.phase = .mutate → s.regs.op = 0x05 → step s = exec .chipErase s) ∧
    (s.phase = .readTxn → step s = exec (.fastRead a s.regs.rem.toNat) s)) ∧
  (∀ (s : State) (i : Instr), s.env.resetIn = false → phaseInstr s = some i → step s = exec i s) ∧
  (∀ (s : State) (w : Window) (i : Instr), s.env.resetIn = false → s.phase = .idle → s.call = some w →
    decode s.params (.window w) = .ok i → step s = exec i { s with call := none })

/-- O13 (R107, R116, R178 to R180): under the invariant, every wire command the engine issues has operands its encoding admits, so its
words decode to it. -/
def Obligations.IssuedCommandsDecode : Prop :=
  ∀ (s : State) (i : Instr), EngineInv s → phaseInstr s = some i →
    i.WellFormed s.params = true ∧ decode s.params (encode s.params i) = .ok i

/-- O14 (R130): a request is accepted in IDLE, with the latches and the one event of R130 and no bus activity, and in no other
phase. -/
def Obligations.AcceptanceOnlyInIdle : Prop :=
  (∀ (s : State) (r : Request) (rest : List Request), s.env.resetIn = false → s.phase = .idle → s.call = none →
    s.env.reqs = r :: rest → requestDutyOk s.params r = true → requestComplete r = true →
    step s = .next { s with
      phase := .check
      regs := { s.regs with
        op := r.op, reqAddr := r.addr, reqLen := r.len, wbuf := if r.op = 0x03 then r.wdata else [] }
      trace := s.trace ++ [.accept r]
      env := { s.env with reqs := rest } }) ∧
  (∀ s t : State, s.phase ≠ .idle → step s = .next t → t.env.reqs = s.env.reqs)

/-- O15 (R131, R354): outside IDLE an offered request is held: what is offered changes nothing in the step but itself, and in HALTED
no step is taken whatever is offered. -/
def Obligations.HeldRequestChangesNothing : Prop :=
  (∀ (s : State) (l : List Request), s.phase ≠ .idle →
    step { s with env := { s.env with reqs := l } } =
      (match step s with
        | .next t => .next { t with env := { t.env with reqs := l } }
        | .fault f => .fault f
        | .refused f => .refused f)) ∧
  (∀ s : State, s.env.resetIn = false → s.phase = .halted → step s = .fault .halted)

/-- O16 (R25): an IDLE engine with nothing offered stays as it is (log 8: the model's step for "no step"). -/
def Obligations.IdleEngineWaits : Prop :=
  ∀ s : State, s.env.resetIn = false → s.phase = .idle → s.call = none → s.env.reqs = [] → step s = .next s

/-- O17 (R139, D7): a READ, WRITE or ERASE with addr + len > 2^32, that is 2^ADDR_BITS, or with an address or a length too wide for
ADDR_BITS or LEN_BITS, is refused, at the port with no step taken for it, and by the meanings (log 10); the other operations are not
bound. -/
def Obligations.HostDutyRefused : Prop :=
  let breaks := fun (p : Params) (a l : Nat) => 2 ^ p.addrBits.val < a + l ∨ 2 ^ p.addrBits.val ≤ a ∨ 2 ^ p.lenBits.val ≤ l
  (∀ (s : State) (r : Request) (rest : List Request), s.env.resetIn = false → s.phase = .idle → s.call = none →
    s.env.reqs = r :: rest → r.op = 0x02 ∨ r.op = 0x03 ∨ r.op = 0x04 → breaks s.params r.addr.toNat r.len.toNat →
    step s = .refused (.hostDuty r.addr r.len.toNat)) ∧
  (∀ (s : State) (a l : Word), breaks s.params a.toNat l.toNat →
    exec (.hostRead a l) s = .refused (.hostDuty a l.toNat) ∧ exec (.hostErase a l) s = .refused (.hostDuty a l.toNat)) ∧
  (∀ (s : State) (a : Word) (d : List Byte), breaks s.params a.toNat d.length →
    exec (.hostWrite a d) s = .refused (.hostDuty a d.length)) ∧
  (∀ (p : Params) (r : Request), r.op ≠ 0x02 → r.op ≠ 0x03 → r.op ≠ 0x04 → requestDutyOk p r = true)

/-! ## What the wire commands do -/

/-- O18 (R171, R220, R225): Identification, the opcode and its placeholder bytes, answered with the two expected bytes; in ID_TXN the
busy wait of the chip reset sequence comes next, elsewhere the call returns (log 20). -/
def Obligations.IdentificationPasses : Prop :=
  ∀ s : State, answersOk s.env 2 → s.env.rxAt 1 s.params.idRx = [s.params.expectedMfr, s.params.expectedDev] →
    exec .identification s = .next
      (let t := afterWindow [.w (0x90 :: List.replicate s.params.idPlaceholders s.params.idPlaceholderValue) true,
          .r 2 [s.params.expectedMfr, s.params.expectedDev] true] s
       if s.phase = .idTxn then { t with phase := .poll, regs := { t.regs with polls := 0, cont := .rsten } } else t)

/-- O19 (R220, R221, R306): in ID_TXN the check passes exactly when the transaction succeeded and answered the two expected bytes; a
failed transaction is BUS_FAILURE, another answer is ID_MISMATCH. -/
def Obligations.IdentificationPassesExactlyWhen : Prop :=
  ∀ s : State, s.phase = .idTxn → ∃ t, exec .identification s = .next t ∧
    let allOk := answersOk s.env (segmentsOf s.params .identification).length
    let rx := s.env.rxAt 1 s.params.idRx
    (t.phase = .poll ↔ allOk ∧ rx = [s.params.expectedMfr, s.params.expectedDev]) ∧
    (¬ allOk → t.phase = .resp ∧ t.resp.status = .err ∧ t.resp.cause = .busFailure) ∧
    (allOk → rx ≠ [s.params.expectedMfr, s.params.expectedDev] →
      t.phase = .resp ∧ t.resp.status = .err ∧ t.resp.cause = .idMismatch)

/-- O20 (R177, R181 to R183, R25): the four single-byte commands, each one segment of one byte, and the phase that follows. -/
def Obligations.SingleByteCommands : Prop :=
  ∀ s : State, answersOk s.env 1 →
    exec .writeEnable s = .next (goingOn .wren .welchk (afterWindow [.w [0x06] true] s)) ∧
    exec .enableReset s = .next (goingOn .rsten .rst (afterWindow [.w [0x66] true] s)) ∧
    exec .reset s = .next
      (let t := afterWindow [.w [0x99] true] s
       if s.phase = .rst then ending .ok .none [] t else t) ∧
    exec .chipErase s = .next (goingOn .mutate .advance (afterWindow [.w [0xC7] true] s))

/-- O21 (R178 to R180, R106, R158): the unit erases, each one segment of the opcode and the three address bytes, most significant
first. -/
def Obligations.EraseCommands : Prop :=
  ∀ (s : State) (a : WireAddr), answersOk s.env 1 →
    let addr := [a.extractLsb' 16 8, a.extractLsb' 8 8, a.extractLsb' 0 8]
    exec (.sectorErase a) s = .next (goingOn .mutate .advance (afterWindow [.w (0x20 :: addr) true] s)) ∧
    exec (.block32Erase a) s = .next (goingOn .mutate .advance (afterWindow [.w (0x52 :: addr) true] s)) ∧
    exec (.block64Erase a) s = .next (goingOn .mutate .advance (afterWindow [.w (0xD8 :: addr) true] s))

/-- O22 (R172, R158): PageProgram with a payload of PP_MIN = 1 to PP_MAX = 256 bytes: the header segment, then the payload segment. In
another phase than MUT the call returns (log 20). -/
def Obligations.PageProgramCommand : Prop :=
  ∀ (s : State) (a : WireAddr) (p : List Byte), 1 ≤ p.length → s.params.ppMin ≤ p.length → p.length ≤ s.params.ppMax →
    answersOk s.env 2 →
    exec (.pageProgram a p) s = .next (goingOn .mutate .advance
      (afterWindow [.w [0x02, a.extractLsb' 16 8, a.extractLsb' 8 8, a.extractLsb' 0 8] true, .w p true] s))

/-- O23 (R245): a payload shorter than PP_MIN = 1 or longer than PP_MAX = 256 is BAD_PAYLOAD_SIZE, with no bus activity. -/
def Obligations.PageProgramSizeRejected : Prop :=
  ∀ (s : State) (a : WireAddr) (p : List Byte), p.length < s.params.ppMin ∨ s.params.ppMax < p.length →
    exec (.pageProgram a p) s = .next (ending .err .badPayloadSize [] s)

/-- O24 (R173, R176): the two commands no host operation issues: ReadData of n ≥ 1 bytes and ReadStatusRegister2 make their
transaction and return. -/
def Obligations.NeverIssuedCommands : Prop :=
  ∀ s : State, answersOk s.env 2 →
    (∀ (a : WireAddr) (n : Nat), 1 ≤ n →
      exec (.readData a n) s = .next (afterWindow
        [.w [0x03, a.extractLsb' 16 8, a.extractLsb' 8 8, a.extractLsb' 0 8] true, .r n (s.env.rxAt 1 n) true] s)) ∧
    exec .readStatusRegister2 s = .next (afterWindow [.w [0x35] true, .r 1 (s.env.rxAt 1 1) true] s)

/-- O25 (R174, R284): FastRead of n ≥ 1 bytes: header, the dummy bytes in one segment (one byte, FAST_READ_DUMMY = 1; the segment is
left out where the parameter is 0, R160), n bytes in; in READ_TXN the response is OK with exactly those bytes, elsewhere the call
returns (log 20). -/
def Obligations.FastReadCommand : Prop :=
  ∀ (s : State) (a : WireAddr) (n : Nat), 1 ≤ n →
    let header : List Byte := [0x0B, a.extractLsb' 16 8, a.extractLsb' 8 8, a.extractLsb' 0 8]
    let writes := if s.params.fastReadDummy = 0 then [header]
      else [header, List.replicate s.params.fastReadDummy s.params.dummyValue]
    let rx := s.env.rxAt writes.length n
    answersOk s.env (writes.length + 1) →
    rx.length = n ∧
    exec (.fastRead a n) s = .next
      (let t := afterWindow (writes.map (Seg.w · true) ++ [.r n rx true]) s
       if s.phase = .readTxn then ending .ok .none rx t else t)

/-- O26 (R203, R205 to R208, R306): the poll of the busy wait. A failed read halts or is BUS_FAILURE by POLL_FAILURE_MODE; BUSY = 0
goes on to `cont` whatever the bound; BUSY = 1 is TIMEOUT at the bound and otherwise SLEEP. In each case the poll is counted. -/
def Obligations.PollOutcomes : Prop :=
  ∀ s : State, s.phase = .poll → ∀ b, s.env.rxAt 1 1 = [b] →
    let counted := { s.regs with polls := s.regs.polls + 1 }
    let t := { afterWindow [.w [0x05] true, .r 1 [b] true] s with regs := counted }
    (answersOk s.env 2 → b.getLsbD 0 = false →
      exec .readStatusRegister1 s =
        .next { t with phase := match s.regs.cont with | .wren => .wren | .rsten => .rsten }) ∧
    (answersOk s.env 2 → b.getLsbD 0 = true → s.params.maxPolls = some (s.regs.polls + 1) →
      exec .readStatusRegister1 s = .next (ending .err .timeout [] t)) ∧
    (answersOk s.env 2 → b.getLsbD 0 = true → s.params.maxPolls ≠ some (s.regs.polls + 1) →
      exec .readStatusRegister1 s = .next { t with phase := .sleep }) ∧
    (¬ answersOk s.env 2 →
      let gs := if s.env.okAt 0 then [.w [0x05] true, .r 1 [b] false] else [.w [0x05] false]
      let u := { afterWindow gs s with regs := counted }
      (s.params.pollFailureMode = .halt →
        exec .readStatusRegister1 s =
          .next { u with phase := .halted, halted := true, trace := s.trace ++ [.txn gs, .halt] }) ∧
      (s.params.pollFailureMode = .error →
        exec .readStatusRegister1 s = .next (ending .err .busFailure [] u)))

/-- O27 (R210 to R212): the gate's status read. Only bit 1 decides; a failed read is BUS_FAILURE in every POLL_FAILURE_MODE. -/
def Obligations.GateOutcomes : Prop :=
  ∀ s : State, s.phase = .welchk → ∀ b, s.env.rxAt 1 1 = [b] →
    let t := afterWindow [.w [0x05] true, .r 1 [b] true] s
    (answersOk s.env 2 → b.getLsbD 1 = true → exec .readStatusRegister1 s = .next { t with phase := .mutate }) ∧
    (answersOk s.env 2 → b.getLsbD 1 = false →
      exec .readStatusRegister1 s = .next (ending .err .welNotSet [] t)) ∧
    (¬ answersOk s.env 2 →
      let gs := if s.env.okAt 0 then [.w [0x05] true, .r 1 [b] false] else [.w [0x05] false]
      exec .readStatusRegister1 s = .next (ending .err .busFailure [] (afterWindow gs s)))

/-- O28 (R153, R154, R157, R158, R160, R161): the segments of a window run in order: the j-th executed is the j-th asked for, a write of its
bytes or a read of its n bytes, with the environment's j-th answer from now on. The first that fails is the last that runs; where none
fails, all run. On the data output go all bytes of the segments that succeed, RX_FILL for each byte received, and some prefix of those
of the one that fails. -/
def Obligations.FirstFailedSegmentEndsTheWindow : Prop :=
  ∀ (qs : List SegReq) (e : Env) (fill : Byte),
    let bytesOf := fun q : SegReq => match q with
      | .w bytes => bytes
      | .r n => List.replicate n fill
    (∀ j < (runSegs qs e).length,
      (∀ bytes, qs[j]? = some (.w bytes) → (runSegs qs e)[j]? = some (.w bytes (e.okAt j))) ∧
      (∀ n, qs[j]? = some (.r n) → (runSegs qs e)[j]? = some (.r n (e.rxAt j n) (e.okAt j)))) ∧
    (∀ k q, qs[k]? = some q → (∀ j < k, e.okAt j = true) → e.okAt k = false →
      (runSegs qs e).length = k + 1 ∧
      (∀ j < k, ((runSegs qs e)[j]?).map Seg.ok = some true) ∧
      ((runSegs qs e)[k]?).map Seg.ok = some false ∧
      ∃ m, drivenBytes fill e.draws (runSegs qs e) = (qs.take k).flatMap bytesOf ++ (bytesOf q).take m) ∧
    ((∀ j < qs.length, e.okAt j = true) →
      (runSegs qs e).length = qs.length ∧ drivenBytes fill e.draws (runSegs qs e) = qs.flatMap bytesOf)

/-- O29 (R157, R159, R163, R172): a failed header skips the payload, and chip-select is still deasserted; some prefix of the header went
out. PageProgram answers it with
ERR(BUS_FAILURE); that it does so in every phase, not only in MUT, is the model's choice (log 20). -/
def Obligations.FailedHeaderSkipsPayload : Prop :=
  ∀ (s : State) (op : Byte) (a : WireAddr) (p : List Byte), s.env.okAt 0 = false →
    (transmit op a p s).ok = false ∧
    (transmit op a p s).st =
      afterWindow [.w [op, a.extractLsb' 16 8, a.extractLsb' 8 8, a.extractLsb' 0 8] false] s ∧
    (∃ m, (transmit op a p s).st.dataOut = [op, a.extractLsb' 16 8, a.extractLsb' 8 8, a.extractLsb' 0 8].take m) ∧
    (s.params.ppMin ≤ p.length → p.length ≤ s.params.ppMax → exec (.pageProgram a p) s = .next (ending .err .busFailure []
      (afterWindow [.w [0x02, a.extractLsb' 16 8, a.extractLsb' 8 8, a.extractLsb' 0 8] false] s)))

/-- O30 (R163, R302): every wire command but the poll of the busy wait answers a transaction that fails with ERR(BUS_FAILURE), no
data, and no further effect than the window; that it does so in any phase is the model's choice (log 20). The operands are any, but
that a PageProgram's payload passes its size check (PageProgramSizeRejected says the rest). -/
def Obligations.FailedTransactionIsBusFailure : Prop :=
  ∀ (s : State) (i : Instr), isWire i = true → (∀ a p, i = .pageProgram a p → payloadSizeOk s.params p = true) →
    (i = .readStatusRegister1 → s.phase ≠ .poll) →
    ¬ answersOk s.env (segmentsOf s.params i).length →
    exec i s = .next (ending .err .busFailure [] (afterWindow (runSegs (segmentsOf s.params i) s.env) s))

/-- O31 (R28, R76, R150, R152 to R154, R157, R207): the frame of the wire commands, with any operands but a PageProgram's payload of a
rejected size (PageProgramSizeRejected). Each makes exactly the one transaction of its segments and leaves chip-select high and the
bytes that went out on the data output (kept there, log 33); parameters, ports, the call slot and `resp_valid` are unchanged; of the
registers only `polls` (in POLL) and `polls` and `cont` (Identification in ID_TXN) may change; only a poll whose read failed, with
POLL_FAILURE_MODE = HALT, halts, and no other event is appended. -/
def Obligations.WireCommandFrame : Prop :=
  ∀ (s : State) (i : Instr), isWire i = true → (∀ a p, i = .pageProgram a p → payloadSizeOk s.params p = true) →
    let gs := runSegs (segmentsOf s.params i) s.env
    ∃ t, exec i s = .next t ∧
    t.params = s.params ∧ t.call = s.call ∧ t.csN = true ∧ t.resp.valid = s.resp.valid ∧
    t.dataOut = drivenBytes s.params.rxFill s.env.draws gs ∧
    t.env = s.env.skip gs.length ∧
    (t.trace = s.trace ++ [.txn gs] ∧ t.halted = s.halted ∨
      i = .readStatusRegister1 ∧ s.phase = .poll ∧ ¬ answersOk s.env 2 ∧ s.params.pollFailureMode = .halt ∧
        t.phase = .halted ∧ t.halted = true ∧ t.trace = s.trace ++ [.txn gs, .halt]) ∧
    (t.regs = s.regs ∨
      i = .readStatusRegister1 ∧ s.phase = .poll ∧ t.regs = { s.regs with polls := s.regs.polls + 1 } ∨
      i = .identification ∧ s.phase = .idTxn ∧ t.regs = { s.regs with polls := 0, cont := .rsten }) ∧
    (t.resp = s.resp ∨ t.phase = .resp)

/-! ## What the host operations do -/

/-- O32 (R225, R240, R260, R269, R280, R283, R140): the CHECK step of each host operation that goes on. INIT enters its identification
transaction and CHIP_ERASE its busy wait, whatever addr and len; READ of a non-empty range goes straight to its transaction, with no
busy wait; WRITE of a non-empty buffer enters its chunk loop and ERASE of a non-empty aligned range its unit loop, with the whole range
to go. The operands are latched and nothing else changes. The ranges are those of R139, in the widths of R9; the alignment is that of
SECTOR_SIZE = 4096. -/
def Obligations.HostOperationsEnterTheirProcedures : Prop :=
  ∀ s : State,
    let fits := fun (a l : Nat) => l < 2 ^ s.params.lenBits.val ∧ a + l ≤ 2 ^ s.params.addrBits.val
    exec .hostInit s = .next { s with phase := .idTxn, regs := { s.regs with op := 0x01 } } ∧
    exec .hostChipErase s =
      .next { s with phase := .poll, regs := { s.regs with op := 0x05, polls := 0, cont := .wren } } ∧
    (∀ a l : Word, l ≠ 0 → fits a.toNat l.toNat →
      exec (.hostRead a l) s = .next { s with
        phase := .readTxn
        regs := { s.regs with op := 0x02, reqAddr := a, reqLen := l, wbuf := [], cur := a, rem := l } }) ∧
    (∀ (a : Word) (d : List Byte), d ≠ [] → fits a.toNat d.length →
      exec (.hostWrite a d) s = .next { s with
        phase := .chunk
        regs := { s.regs with
          op := 0x03, reqAddr := a, reqLen := BitVec.ofNat 32 d.length, wbuf := d, cur := a,
          rem := BitVec.ofNat 32 d.length, idx := 0 } }) ∧
    (∀ a l : Word, l ≠ 0 → a.toNat % s.params.sectorSize = 0 → l.toNat % s.params.sectorSize = 0 →
      fits a.toNat l.toNat →
      exec (.hostErase a l) s = .next { s with
        phase := .unit
        regs := { s.regs with op := 0x04, reqAddr := a, reqLen := l, wbuf := [], cur := a, rem := l } })

/-- O33 (R134, R120): a reserved code in CHECK is answered ERR(ILLEGAL_REQUEST), code 0xA, with no bus activity. That CHECK raises is
R25 and R302 against R312 (log 32); that the working registers and the response's status and cause are kept into IDLE, where R309
leaves them unspecified, is the model's choice (log 6). -/
def Obligations.ReservedOpAnswered : Prop :=
  Cause.illegalRequest.code = 0xA ∧
  ∀ s : State, s.env.resetIn = false → s.phase = .check → s.regs.op = 0x00 ∨ 0x06 ≤ s.regs.op.toNat →
    core.run 2 s = .next (answeredAtOnce .err .illegalRequest s)

/-- O34 (R281): READ with len = 0 ends with ERR(EMPTY_BUFFER); its run holds no transaction and no sleep. The address is one of
ADDR_BITS. That CHECK raises is R25 and R302 against R312 (log 32); that the working registers and the response's status and cause are
kept into IDLE is the model's choice (log 6). -/
def Obligations.EmptyReadAnswered : Prop :=
  ∀ s : State, s.env.resetIn = false → s.phase = .check → s.regs.op = 0x02 → s.regs.reqLen = 0 → s.regs.wbuf = [] →
    s.regs.reqAddr.toNat < 2 ^ s.params.addrBits.val →
    core.run 2 s = .next (answeredAtOnce .err .emptyBuffer s)

/-- O35 (R248): WRITE with len = 0 responds OK with no transaction and no busy wait. The address is one of ADDR_BITS. That the
response's status and cause are kept into IDLE is the model's choice (log 6). -/
def Obligations.EmptyWriteAnswered : Prop :=
  ∀ s : State, s.env.resetIn = false → s.phase = .check → s.regs.op = 0x03 → s.regs.reqLen = 0 → s.regs.wbuf = [] →
    s.regs.reqAddr.toNat < 2 ^ s.params.addrBits.val →
    ∃ r : Regs, core.run 2 s = .next { answeredAtOnce .ok .none s with regs := r }

/-- O36 (R261): ERASE with addr or len no multiple of SECTOR_SIZE = 4096 ends with ERR(MISALIGNED); its run holds no transaction and
no sleep. The request is one the port accepts (R139). That CHECK raises is R25 and R302 against R312 (log 32); that the working
registers and the response's status and cause are kept into IDLE is the model's choice (log 6). -/
def Obligations.MisalignedEraseAnswered : Prop :=
  Params.default.sectorSize = 4096 ∧
  ∀ s : State, s.env.resetIn = false → s.phase = .check → s.regs.op = 0x04 → s.regs.wbuf = [] →
    s.regs.reqAddr.toNat < 2 ^ s.params.addrBits.val → s.regs.reqLen.toNat < 2 ^ s.params.lenBits.val →
    s.regs.reqAddr.toNat + s.regs.reqLen.toNat ≤ 2 ^ s.params.addrBits.val →
    s.regs.reqAddr.toNat % s.params.sectorSize ≠ 0 ∨ s.regs.reqLen.toNat % s.params.sectorSize ≠ 0 →
    core.run 2 s = .next (answeredAtOnce .err .misaligned s)

/-- O37 (R266): ERASE with len = 0 responds OK with no transaction when addr is a multiple of SECTOR_SIZE = 4096, else
ERR(MISALIGNED). The address is one of ADDR_BITS. That CHECK raises is R25 and R302 against R312 (log 32); that the response's status
and cause, and in the error case the working registers, are kept into IDLE is the model's choice (log 6). -/
def Obligations.EmptyEraseAnswered : Prop :=
  Params.default.sectorSize = 4096 ∧
  ∀ s : State, s.env.resetIn = false → s.phase = .check → s.regs.op = 0x04 → s.regs.reqLen = 0 → s.regs.wbuf = [] →
    s.regs.reqAddr.toNat < 2 ^ s.params.addrBits.val →
    (s.regs.reqAddr.toNat % s.params.sectorSize = 0 →
      ∃ r : Regs, core.run 2 s = .next { answeredAtOnce .ok .none s with regs := r }) ∧
    (s.regs.reqAddr.toNat % s.params.sectorSize ≠ 0 → core.run 2 s = .next (answeredAtOnce .err .misaligned s))

/-! ## The steps of the sequencer -/

/-- O38 (R241, R244): the step of CHUNK, with a geometry that a block can have (log 18). The chunk is the smaller of the room in the
page of PAGE_SIZE = 256 and the bytes left, is 1 to PAGE_SIZE, and lies in its page; the busy wait comes next. -/
def Obligations.ChunkStep : Prop :=
  ∀ s : State, s.env.resetIn = false → s.phase = .chunk → s.regs.rem ≠ 0 → s.params.geometryOk = true →
    let size := s.params.pageSize
    ∃ c : BitVec 9,
      step s = .next { s with phase := .poll, regs := { s.regs with chunk := c, polls := 0, cont := .wren } } ∧
      c.toNat = min (size - s.regs.cur.toNat % size) s.regs.rem.toNat ∧ 1 ≤ c.toNat ∧ c.toNat ≤ size ∧
      s.regs.cur.toNat % size + c.toNat ≤ size

/-- O39 (R262): the step of UNIT. The first row of R262 whose condition holds is taken, with BLOCK64_SIZE = 65536, BLOCK32_SIZE = 32768
and SECTOR_SIZE = 4096; if none holds the error is NO_ERASE_UNIT. -/
def Obligations.UnitStep : Prop :=
  ∀ s : State, s.env.resetIn = false → s.phase = .unit →
    let fits := fun n : Nat => s.regs.cur.toNat % n = 0 ∧ n ≤ s.regs.rem.toNat
    let big := fits s.params.block64Size
    let middle := fits s.params.block32Size
    let small := fits s.params.sectorSize
    let chosen := fun u : EraseUnit =>
      step s = .next { s with phase := .poll, regs := { s.regs with unit := u, polls := 0, cont := .wren } }
    (big → chosen .block64) ∧
    (¬ big → middle → chosen .block32) ∧
    (¬ big → ¬ middle → small → chosen .sector) ∧
    (¬ big → ¬ middle → ¬ small → step s = .next (ending .err .noEraseUnit [] s))

/-- O40 (R243, R264, R25): the step of ADVANCE. WRITE moves past its chunk and ERASE past its unit, modulo 2^32, that is 2^ADDR_BITS;
they go round while bytes are left and else end with OK; CHIP_ERASE ends with OK. -/
def Obligations.AdvanceStep : Prop :=
  ∀ s : State, s.env.resetIn = false → s.phase = .advance →
    let past := fun x : Word => BitVec.ofNat 32 ((s.regs.cur.toNat + x.toNat) % 2 ^ s.params.addrBits.val)
    (s.regs.op = 0x03 →
      let c := s.regs.chunk.setWidth 32
      let t := { s with regs := { s.regs with cur := past c, idx := s.regs.idx + c, rem := s.regs.rem - c } }
      step s = .next (if s.regs.rem = c then ending .ok .none [] t else { t with phase := .chunk })) ∧
    (s.regs.op = 0x04 →
      let n : Word := BitVec.ofNat 32 (match s.regs.unit with
        | .sector => s.params.sectorSize
        | .block32 => s.params.block32Size
        | .block64 => s.params.block64Size)
      let t := { s with regs := { s.regs with cur := past n, rem := s.regs.rem - n } }
      step s = .next (if s.regs.rem = n then ending .ok .none [] t else { t with phase := .unit })) ∧
    (s.regs.op = 0x05 → step s = .next (ending .ok .none [] s))

/-- O41 (R204, R320): the step of SLEEP: one `Sleep` event, then the next poll; every piece of state survives. -/
def Obligations.SleepStep : Prop :=
  ∀ s : State, s.env.resetIn = false → s.phase = .sleep →
    step s = .next { s with phase := .poll, trace := s.trace ++ [.sleep] }

/-- O42 (R135, R136, R34): the step of RESP: one `Respond` event with the response set, `resp_valid` low again, IDLE. That `resp_valid` is high only
inside the step is the model's reading (log 13), that no copy of the data is kept is log 14, and that the working registers and the
response's status and cause are kept into IDLE is the model's choice (log 6). -/
def Obligations.ResponseStep : Prop :=
  ∀ s : State, s.env.resetIn = false → s.phase = .resp →
    step s = .next { s with
      phase := .idle
      resp := { s.resp with valid := false, data := [] }
      trace := s.trace ++ [.respond s.resp.status s.resp.cause s.resp.data] }

/-- O43 (R28, R74, R75): a step adds to the trace at its end only: no event, one event, or a transaction and the `Halt` after it; and
nothing in CHECK, CHUNK, UNIT and ADVANCE; only engine reset clears it (log 5). -/
def Obligations.TraceGrowsAtItsEnd : Prop :=
  ∀ s t : State, s.env.resetIn = false → step s = .next t →
    (t.trace = s.trace ∨ (∃ e, t.trace = s.trace ++ [e]) ∨ (∃ gs, t.trace = s.trace ++ [.txn gs, .halt])) ∧
    (s.phase = .check ∨ s.phase = .chunk ∨ s.phase = .unit ∨ s.phase = .advance →
      t.trace = s.trace ∧ t.env = s.env)

/-- O44 (R32): no step changes a parameter. -/
def Obligations.ParametersNeverChange : Prop :=
  ∀ s t : State, step s = .next t → t.params = s.params

/-! ## Invariants -/

/-- O45 (R37, R341): reset has the invariants. That the response registers there are OK, NONE and empty (the invariant's `response`) is
the model's choice where R37 leaves them unspecified (log 4); that its parameters are the defaults is log 18. -/
def Obligations.ResetHasTheInvariants : Prop :=
  EngineInv State.reset ∧ mutationsGuarded State.reset = true ∧ handshakeSoFar State.reset = true ∧
    pagesFit State.reset = true ∧ requestsInOrder State.reset = true ∧ WriteProgress State.reset ∧
    EraseProgress State.reset ∧ State.reset.trace.all Event.opcodeKnown = true

/-- O46 (R23, R25, R30, R31, R152, R243, R264, R308, R321): every step keeps the invariant of the sequencer. The model's own parts of
it: `resp_valid` is high only inside the step of RESP (`respQuiet`, log 13); the response's status and cause agree in every phase and
data is there only before a READ's response (`response`, logs 4, 6, 14); no internal call is made (`noCall`, log 3); the parameters
(`paramsOk`, log 18). -/
def Obligations.StepKeepsInv : Prop :=
  ∀ s t : State, EngineInv s → step s = .next t → EngineInv t

/-- O47 (R84, R85, R213, R350): every step keeps it that each mutating transaction comes right after a poll that read BUSY = 0, a
successful WriteEnable and a status read with WEL = 1. -/
def Obligations.StepKeepsMutationsGuarded : Prop :=
  ∀ s t : State, EngineInv s → mutationsGuarded s = true → handshakeSoFar s = true → step s = .next t →
    mutationsGuarded t = true ∧ handshakeSoFar t = true

/-- O48 (R73, R244, R351): every step keeps it that no PageProgram leaves its page of PAGE_SIZE bytes; with PAGE_SIZE = 256 that says
`a0 + len(p) ≤ 256` of each one's last address byte and payload. -/
def Obligations.StepKeepsPagesFit : Prop :=
  ∀ s t : State, EngineInv s → pagesFit s = true → step s = .next t →
    pagesFit t = true ∧
    (t.params.pageSize = 256 → ∀ (a2 a1 a0 : Byte) (p : List Byte) (ok ok' : Bool) (rest : List Seg),
      Event.txn (.w [0x02, a2, a1, a0] ok :: .w p ok' :: rest) ∈ t.trace → a0.toNat + p.length ≤ 256)

/-- O49 (R83, R137, R141, R313): every step keeps it that requests do not overlap: each transaction and sleep lies between an `Accept`
and its one `Respond` or the `Halt`, and the phase says where. -/
def Obligations.StepKeepsRequestsInOrder : Prop :=
  ∀ s t : State, EngineInv s → requestsInOrder s = true → step s = .next t → requestsInOrder t = true

/-- O50 (R240, R242, R247, R249): every step keeps it that a WRITE has issued exactly the head of its plan, and by its OK the whole
plan, in order. -/
def Obligations.WriteFollowsItsPlan : Prop :=
  ∀ s t : State, EngineInv s → WriteProgress s → step s = .next t → WriteProgress t

/-- O51 (R260, R263, R267, R270): every step keeps it that an ERASE has issued exactly the head of its plan, and by its OK the whole
plan, in order. -/
def Obligations.EraseFollowsItsPlan : Prop :=
  ∀ s t : State, EngineInv s → EraseProgress s → step s = .next t → EraseProgress t

/-- O52 (R201, R245, R265, R313): under the invariant the three unreachable errors are not raised, and the engine stops nowhere but in
HALTED and at a request it refuses in IDLE. -/
def Obligations.UnreachableErrorsStayUnreachable : Prop :=
  ∀ s : State, EngineInv s →
    (∃ t, step s = .next t ∧
      (s.phase ≠ .resp → t.phase = .resp →
        t.resp.cause ≠ .badStatusSelector ∧ t.resp.cause ≠ .badPayloadSize ∧ t.resp.cause ≠ .noEraseUnit)) ∨
    (s.phase = .halted ∧ step s = .fault .halted) ∨
    (s.phase = .idle ∧ s.env.reqs ≠ [] ∧ ∃ r, step s = .refused r)

/-! ## Whole operations -/

/-- O53 (R244, R246, R247): the plan of a WRITE, with a geometry that a block can have (log 18). Its payloads put together are the
buffer; each is 1 to PAGE_SIZE = 256 bytes and lies in one page; chunk k goes to the wire address of addr plus the earlier sizes; each
after the first starts a page; there is one per page touched. -/
def Obligations.WritePlanCoversTheBuffer : Prop :=
  ∀ (p : Params) (addr : Word) (data : List Byte), p.geometryOk = true → data.length < 2 ^ 32 →
    addr.toNat + data.length ≤ 2 ^ 32 →
    let plan := writePlan p addr data
    let size := p.pageSize
    plan.flatMap Prod.snd = data ∧
    (∀ x ∈ plan, 1 ≤ x.2.length ∧ x.2.length ≤ size ∧ x.1.toNat % size + x.2.length ≤ size) ∧
    (∀ k (h : k < plan.length),
      (plan[k]).1 = wireAddr p (addr + BitVec.ofNat 32 ((plan.take k).map fun x => x.2.length).sum) ∧
      (1 ≤ k → (plan[k]).1.toNat % size = 0)) ∧
    (data ≠ [] → plan.length = (addr.toNat % size + data.length + (size - 1)) / size)

/-- O54 (R267, R70): the plan of an ERASE, with a geometry that a block can have (log 18). Its units' sizes sum to the length; they lie
one after the other from addr on, each at a multiple of its size. The range is aligned to SECTOR_SIZE = 4096. -/
def Obligations.ErasePlanCoversTheRange : Prop :=
  ∀ (p : Params) (addr len : Word), p.geometryOk = true → addr.toNat % p.sectorSize = 0 → len.toNat % p.sectorSize = 0 →
    addr.toNat + len.toNat ≤ 2 ^ 32 →
    unitBytes p (erasePlan p addr len) = len.toNat ∧ contiguousFrom p addr.toNat (erasePlan p addr len) = true

/-- O55 (R203 to R206): the busy wait. With MAX_POLLS = UNBOUNDED on a bus that does not fail, each status byte with BUSY = 1 costs a
poll and a `Sleep` and leaves the engine polling, however many there are; the first with BUSY = 0 ends the wait with no `Sleep`
after it. That the last window's bytes stay on the data output is the model's choice (log 33). -/
def Obligations.BusyWaitPollsUntilReady : Prop :=
  ∀ (bs : List Byte) (s : State) (rest : List SegAnswer), s.env.resetIn = false → s.phase = .poll →
    s.params.maxPolls = none → (∀ b ∈ bs, b.getLsbD 0 = true) → s.csN = true →
    (s.env.answers = statusScript bs ++ rest →
      core.run (2 * bs.length) s = .next { s with
        regs := { s.regs with polls := s.regs.polls + bs.length }
        dataOut := if bs = [] then s.dataOut else [0x05, s.params.rxFill]
        trace := s.trace ++ busyPolls bs
        env := { s.env with answers := rest, draws := s.env.draws + 2 * bs.length } }) ∧
    (∀ b : Byte, b.getLsbD 0 = false → s.env.answers = statusScript (bs ++ [b]) ++ rest →
      core.run (2 * bs.length + 1) s = .next { s with
        phase := match s.regs.cont with | .wren => .wren | .rsten => .rsten
        regs := { s.regs with polls := s.regs.polls + bs.length + 1 }
        dataOut := [0x05, s.params.rxFill]
        trace := s.trace ++ busyPolls bs ++ [statusTxn b]
        env := { s.env with answers := rest, draws := s.env.draws + 2 * bs.length + 2 } })

/-- O56 (R205): the bounded busy wait. With MAX_POLLS = n, n polls that read BUSY = 1 end in ERR(TIMEOUT) with no `Sleep` after the
last. -/
def Obligations.BusyWaitTimesOut : Prop :=
  ∀ (bs : List Byte) (b : Byte) (s : State) (rest : List SegAnswer), s.env.resetIn = false → s.phase = .poll →
    s.regs.polls = 0 → s.params.maxPolls = some (bs.length + 1) → (∀ x ∈ bs, x.getLsbD 0 = true) →
    b.getLsbD 0 = true → s.env.answers = statusScript (bs ++ [b]) ++ rest →
    ∃ t, core.run (2 * bs.length + 1) s = .next t ∧ t.phase = .resp ∧ t.resp.status = .err ∧ t.resp.cause = .timeout ∧
      t.trace = s.trace ++ busyPolls bs ++ [statusTxn b]

/-- O57 (R91, R94): what the stated facts of the device give. Where the status read after a WriteEnable shows WEL = 1, the gate passes
or the bus fails; where identification of ID_RX = 2 bytes is answered 0xEF, 0x17 and those are expected, the check passes or the bus
fails. -/
def Obligations.StatedDeviceFactsPassTheChecks : Prop :=
  (∀ s t : State, s.env.resetIn = false → s.phase = .welchk → handshakeSoFar s = true → step s = .next t →
    latchSetAfterEnable t.trace = true → t.phase = .mutate ∨ (t.phase = .resp ∧ t.resp.cause = .busFailure)) ∧
  (∀ s t : State, s.env.resetIn = false → s.phase = .idTxn → s.params.expectedMfr = 0xEF → s.params.expectedDev = 0x17 →
    s.params.idRx = 2 → step s = .next t → t.trace.all Event.identifiesAsStated = true →
    t.phase = .poll ∨ (t.phase = .resp ∧ t.resp.cause = .busFailure))

/-- O58 (R280, R282, R284, R286): READ of n ≥ 1 bytes, from CHECK to IDLE: exactly one transaction, of the header, the dummy byte
(FAST_READ_DUMMY = 1: three segments when none fails; no dummy segment where the parameter is 0, R160) and the n bytes, and the
response: OK with exactly the n bytes received, or ERR(BUS_FAILURE) with no data. The request is one the port accepts (R139). -/
def Obligations.ReadMakesOneTransaction : Prop :=
  ∀ s : State, s.env.resetIn = false → s.phase = .check → s.regs.op = 0x02 → s.regs.wbuf = [] → s.regs.reqLen ≠ 0 →
    s.regs.reqLen.toNat < 2 ^ s.params.lenBits.val →
    s.regs.reqAddr.toNat + s.regs.reqLen.toNat ≤ 2 ^ s.params.addrBits.val →
    let n := s.regs.reqLen.toNat
    let a : WireAddr := BitVec.ofNat 24 (s.regs.reqAddr.toNat % 2 ^ s.params.wireAddrBits.val)
    let header : List Byte := [0x0B, a.extractLsb' 16 8, a.extractLsb' 8 8, a.extractLsb' 0 8]
    let writes := if s.params.fastReadDummy = 0 then [header]
      else [header, List.replicate s.params.fastReadDummy s.params.dummyValue]
    let rx := s.env.rxAt writes.length n
    ∃ t, core.run 3 s = .next t ∧ t.phase = .idle ∧
      (answersOk s.env (writes.length + 1) →
        rx.length = n ∧
        t.trace = s.trace ++ [.txn (writes.map (Seg.w · true) ++ [.r n rx true]), .respond .ok .none rx]) ∧
      (¬ answersOk s.env (writes.length + 1) →
        t.trace = s.trace ++
          [.txn (runSegs (writes.map SegReq.w ++ [.r n]) s.env), .respond .err .busFailure []])

/-- O59 (R222, R223, R225; vectors X6, I1, P1): INIT from CHECK to IDLE on a bus that does not fail, with the expected identification
of ID_RX = 2 bytes and a device that is busy at each byte of bs and ready at b: the identification, the polls with a `Sleep` between
them, EnableReset, Reset, and OK, with nothing between. -/
def Obligations.InitRunsItsSequence : Prop :=
  ∀ (bs : List Byte) (b : Byte) (s : State) (rest : List SegAnswer), s.env.resetIn = false → s.phase = .check →
    s.regs.op = 0x01 → s.regs.wbuf = [] → s.params.maxPolls = none → s.params.idRx = 2 →
    (∀ x ∈ bs, x.getLsbD 0 = true) → b.getLsbD 0 = false →
    s.env.answers = [⟨true, []⟩, ⟨true, [s.params.expectedMfr, s.params.expectedDev]⟩] ++ statusScript (bs ++ [b]) ++
      [⟨true, []⟩, ⟨true, []⟩] ++ rest →
    ∃ t, core.run (2 * bs.length + 6) s = .next t ∧ t.phase = .idle ∧ t.csN = true ∧ t.halted = s.halted ∧
      t.env.answers = rest ∧
      t.trace = s.trace ++
        [.txn [.w (0x90 :: List.replicate s.params.idPlaceholders s.params.idPlaceholderValue) true,
          .r 2 [s.params.expectedMfr, s.params.expectedDev] true]] ++
        busyPolls bs ++ [statusTxn b, .txn [.w [0x66] true], .txn [.w [0x99] true], .respond .ok .none []]

/-- O60 (R22, R23, R137): no working register and no response register carries anything from one request into the next: from two IDLE
states that differ in nothing else, any number of steps ends in states that differ in nothing else, or in the same stop. -/
def Obligations.NoRegisterCarriesOver : Prop :=
  ∀ (k : Nat) (s t : State), s.phase = .idle → agreeOutsideRegs s t = true → sameOutside (core.run k s) (core.run k t)
end

