-- ==== Sys2Proof/Laws/Decode.lean ====
section
/-! SUPPORT. The byte-order helpers undo each other, and what the decoder reads from a request header. -/

namespace Sys2Proof

@[simp] theorem be3_length (a : WireAddr) : (be3 a).length = 3 := rfl

@[simp] theorem be4_length (v : Word) : (be4 v).length = 4 := rfl

@[simp] theorem zeros_length (n : Nat) : (zeros n).length = n := by simp [zeros]

/-- Taking an address apart and putting it together gives it back (R65). -/
theorem ofBe3_be3 (a : WireAddr) :
    ofBe3 (a.extractLsb' 16 8) (a.extractLsb' 8 8) (a.extractLsb' 0 8) = a := by
  apply BitVec.eq_of_getLsbD_eq
  intro i hi
  simp only [ofBe3, BitVec.getLsbD_append, BitVec.getLsbD_extractLsb']
  have h : i < 8 ∨ (8 ≤ i ∧ i < 16) ∨ 16 ≤ i := by omega
  rcases h with h | ⟨h, h'⟩ | h
  · simp [h]
  · simp [show ¬ i < 8 by omega, show i - 8 < 8 by omega, show 8 + (i - 8) = i by omega]
  · simp [show ¬ i < 8 by omega, show ¬ i - 8 < 8 by omega, show i - 8 - 8 < 8 by omega,
      show 16 + (i - 8 - 8) = i by omega]

/-- Three bytes put together and taken apart are the same three bytes (R65). -/
theorem be3_ofBe3 (b2 b1 b0 : Byte) : be3 (ofBe3 b2 b1 b0) = [b2, b1, b0] := by
  simp only [be3, ofBe3, List.cons.injEq, and_true]
  refine ⟨?_, ?_, ?_⟩ <;> apply BitVec.eq_of_getLsbD_eq <;> intro i hi <;>
    simp only [BitVec.getLsbD_append, BitVec.getLsbD_extractLsb', hi, decide_true, Bool.true_and]
  · simp [show ¬ 16 + i < 8 by omega, show ¬ 16 + i - 8 < 8 by omega, show 16 + i - 8 - 8 = i by omega]
  · simp [show ¬ 8 + i < 8 by omega, hi]
  · simp [hi]

/-- Taking a header field apart and putting it together gives it back (R101). -/
theorem ofBe4_be4 (v : Word) :
    ofBe4 (v.extractLsb' 24 8) (v.extractLsb' 16 8) (v.extractLsb' 8 8) (v.extractLsb' 0 8) = v := by
  apply BitVec.eq_of_getLsbD_eq
  intro i hi
  simp only [ofBe4, BitVec.getLsbD_append, BitVec.getLsbD_extractLsb']
  have h : i < 8 ∨ (8 ≤ i ∧ i < 16) ∨ (16 ≤ i ∧ i < 24) ∨ 24 ≤ i := by omega
  rcases h with h | ⟨h, h'⟩ | ⟨h, h'⟩ | h
  · simp [h]
  · simp [show ¬ i < 8 by omega, show i - 8 < 8 by omega, show 8 + (i - 8) = i by omega]
  · simp [show ¬ i < 8 by omega, show ¬ i - 8 < 8 by omega, show i - 8 - 8 < 8 by omega,
      show 16 + (i - 8 - 8) = i by omega]
  · simp [show ¬ i < 8 by omega, show ¬ i - 8 < 8 by omega, show ¬ i - 8 - 8 < 8 by omega,
      show i - 8 - 8 - 8 < 8 by omega, show 24 + (i - 8 - 8 - 8) = i by omega]

/-- Four bytes put together and taken apart are the same four bytes (R101). -/
theorem be4_ofBe4 (b3 b2 b1 b0 : Byte) : be4 (ofBe4 b3 b2 b1 b0) = [b3, b2, b1, b0] := by
  simp only [be4, ofBe4, List.cons.injEq, and_true]
  refine ⟨?_, ?_, ?_, ?_⟩ <;> apply BitVec.eq_of_getLsbD_eq <;> intro i hi <;>
    simp only [BitVec.getLsbD_append, BitVec.getLsbD_extractLsb', hi, decide_true, Bool.true_and]
  · simp [show ¬ 24 + i < 8 by omega, show ¬ 24 + i - 8 < 8 by omega, show ¬ 24 + i - 8 - 8 < 8 by omega,
      show 24 + i - 8 - 8 - 8 = i by omega]
  · simp [show ¬ 16 + i < 8 by omega, show ¬ 16 + i - 8 < 8 by omega, show 16 + i - 8 - 8 = i by omega, hi]
  · simp [show ¬ 8 + i < 8 by omega, hi]
  · simp [hi]

/-- What the decoder reads from a header and the bytes after it (R101, R103). -/
theorem decodeRequest_requestHeader (op : Byte) (addr len : Word) (data : List Byte) :
    decodeRequest (requestHeader op addr len ++ data) =
      if data.length < requestDataLength op len then .error .truncatedRequest
      else
        match decodeHeader op addr len (data.take (requestDataLength op len)) with
        | .ok i => .ok (i, data.drop (requestDataLength op len))
        | .error e => .error e := by
  simp only [requestHeader, be4, List.cons_append, List.nil_append, decodeRequest, ofBe4_be4] <;> rfl

/-- A request without data bytes (INIT, READ, ERASE, CHIP_ERASE). -/
theorem decode_header_only (p : Params) {op : Byte} (h : op ≠ HostOp.write) (addr len : Word) :
    decode p (.request (requestHeader op addr len)) = decodeHeader op addr len [] := by
  have e := decodeRequest_requestHeader op addr len []
  rw [List.append_nil] at e
  simp only [decode, e, requestDataLength, h, if_false, List.length_nil, Nat.lt_irrefl, List.take_nil, List.drop_nil]
  cases decodeHeader op addr len [] <;> rfl

/-- A WRITE request whose data has the length its header gives. -/
theorem decode_write_request (p : Params) (addr len : Word) {data : List Byte} (h : data.length = len.toNat) :
    decode p (.request (requestHeader HostOp.write addr len ++ data)) = .ok (.hostWrite addr data) := by
  simp only [decode, decodeRequest_requestHeader, requestDataLength, if_true, ← h, Nat.lt_irrefl, if_false,
    List.take_length, List.drop_length]
  rfl

/-- A reserved operation code is refused by name, whatever follows (R120). -/
theorem decode_reserved_request (p : Params) {op : Byte} (h : HostOp.known op = false) (addr len : Word) (data : List Byte) :
    decode p (.request (requestHeader op addr len ++ data)) = .error (.reservedOp op) := by
  simp only [HostOp.known, Bool.or_eq_false_iff, beq_eq_false_iff_ne] at h
  obtain ⟨⟨⟨⟨h1, h2⟩, h3⟩, h4⟩, h5⟩ := h
  simp [decode, decodeRequest_requestHeader, requestDataLength, decodeHeader, h1, h2, h3, h4, h5]

end Sys2Proof
end

