-- ==== Sys2Proof/Laws/State.lean ====
section
/-! SUPPORT. What each small update of the state does to each field: one lemma per field per update, true by rfl. -/

namespace Sys2Proof.Machine

@[simp] theorem setPhase_params (p : Phase) (s : State) : (setPhase p s).params = s.params := rfl
@[simp] theorem setPhase_phase (p : Phase) (s : State) : (setPhase p s).phase = p := rfl
@[simp] theorem setPhase_regs (p : Phase) (s : State) : (setPhase p s).regs = s.regs := rfl
@[simp] theorem setPhase_resp (p : Phase) (s : State) : (setPhase p s).resp = s.resp := rfl
@[simp] theorem setPhase_halted (p : Phase) (s : State) : (setPhase p s).halted = s.halted := rfl
@[simp] theorem setPhase_csN (p : Phase) (s : State) : (setPhase p s).csN = s.csN := rfl
@[simp] theorem setPhase_dataOut (p : Phase) (s : State) : (setPhase p s).dataOut = s.dataOut := rfl
@[simp] theorem setPhase_trace (p : Phase) (s : State) : (setPhase p s).trace = s.trace := rfl
@[simp] theorem setPhase_call (p : Phase) (s : State) : (setPhase p s).call = s.call := rfl
@[simp] theorem setPhase_env (p : Phase) (s : State) : (setPhase p s).env = s.env := rfl

@[simp] theorem record_params (e : Event) (s : State) : (record e s).params = s.params := rfl
@[simp] theorem record_phase (e : Event) (s : State) : (record e s).phase = s.phase := rfl
@[simp] theorem record_regs (e : Event) (s : State) : (record e s).regs = s.regs := rfl
@[simp] theorem record_resp (e : Event) (s : State) : (record e s).resp = s.resp := rfl
@[simp] theorem record_halted (e : Event) (s : State) : (record e s).halted = s.halted := rfl
@[simp] theorem record_csN (e : Event) (s : State) : (record e s).csN = s.csN := rfl
@[simp] theorem record_dataOut (e : Event) (s : State) : (record e s).dataOut = s.dataOut := rfl
@[simp] theorem record_trace (e : Event) (s : State) : (record e s).trace = s.trace ++ [e] := rfl
@[simp] theorem record_call (e : Event) (s : State) : (record e s).call = s.call := rfl
@[simp] theorem record_env (e : Event) (s : State) : (record e s).env = s.env := rfl

@[simp] theorem csAssert_params (s : State) : (csAssert s).params = s.params := rfl
@[simp] theorem csAssert_phase (s : State) : (csAssert s).phase = s.phase := rfl
@[simp] theorem csAssert_regs (s : State) : (csAssert s).regs = s.regs := rfl
@[simp] theorem csAssert_resp (s : State) : (csAssert s).resp = s.resp := rfl
@[simp] theorem csAssert_halted (s : State) : (csAssert s).halted = s.halted := rfl
@[simp] theorem csAssert_csN (s : State) : (csAssert s).csN = false := rfl
@[simp] theorem csAssert_dataOut (s : State) : (csAssert s).dataOut = s.dataOut := rfl
@[simp] theorem csAssert_trace (s : State) : (csAssert s).trace = s.trace := rfl
@[simp] theorem csAssert_call (s : State) : (csAssert s).call = s.call := rfl
@[simp] theorem csAssert_env (s : State) : (csAssert s).env = s.env := rfl

@[simp] theorem csDeassert_params (s : State) : (csDeassert s).params = s.params := rfl
@[simp] theorem csDeassert_phase (s : State) : (csDeassert s).phase = s.phase := rfl
@[simp] theorem csDeassert_regs (s : State) : (csDeassert s).regs = s.regs := rfl
@[simp] theorem csDeassert_resp (s : State) : (csDeassert s).resp = s.resp := rfl
@[simp] theorem csDeassert_halted (s : State) : (csDeassert s).halted = s.halted := rfl
@[simp] theorem csDeassert_csN (s : State) : (csDeassert s).csN = true := rfl
@[simp] theorem csDeassert_dataOut (s : State) : (csDeassert s).dataOut = s.dataOut := rfl
@[simp] theorem csDeassert_trace (s : State) : (csDeassert s).trace = s.trace := rfl
@[simp] theorem csDeassert_call (s : State) : (csDeassert s).call = s.call := rfl
@[simp] theorem csDeassert_env (s : State) : (csDeassert s).env = s.env := rfl

@[simp] theorem respondOk_params (d : List Byte) (s : State) : (respondOk d s).params = s.params := rfl
@[simp] theorem respondOk_phase (d : List Byte) (s : State) : (respondOk d s).phase = .resp := rfl
@[simp] theorem respondOk_regs (d : List Byte) (s : State) : (respondOk d s).regs = s.regs := rfl
@[simp] theorem respondOk_resp (d : List Byte) (s : State) : (respondOk d s).resp = { s.resp with status := .ok, cause := .none, data := d } := rfl
@[simp] theorem respondOk_halted (d : List Byte) (s : State) : (respondOk d s).halted = s.halted := rfl
@[simp] theorem respondOk_csN (d : List Byte) (s : State) : (respondOk d s).csN = s.csN := rfl
@[simp] theorem respondOk_dataOut (d : List Byte) (s : State) : (respondOk d s).dataOut = s.dataOut := rfl
@[simp] theorem respondOk_trace (d : List Byte) (s : State) : (respondOk d s).trace = s.trace := rfl
@[simp] theorem respondOk_call (d : List Byte) (s : State) : (respondOk d s).call = s.call := rfl
@[simp] theorem respondOk_env (d : List Byte) (s : State) : (respondOk d s).env = s.env := rfl

@[simp] theorem raise_params (c : Cause) (s : State) : (raise c s).params = s.params := rfl
@[simp] theorem raise_phase (c : Cause) (s : State) : (raise c s).phase = .resp := rfl
@[simp] theorem raise_regs (c : Cause) (s : State) : (raise c s).regs = s.regs := rfl
@[simp] theorem raise_resp (c : Cause) (s : State) : (raise c s).resp = { s.resp with status := .err, cause := c, data := [] } := rfl
@[simp] theorem raise_halted (c : Cause) (s : State) : (raise c s).halted = s.halted := rfl
@[simp] theorem raise_csN (c : Cause) (s : State) : (raise c s).csN = s.csN := rfl
@[simp] theorem raise_dataOut (c : Cause) (s : State) : (raise c s).dataOut = s.dataOut := rfl
@[simp] theorem raise_trace (c : Cause) (s : State) : (raise c s).trace = s.trace := rfl
@[simp] theorem raise_call (c : Cause) (s : State) : (raise c s).call = s.call := rfl
@[simp] theorem raise_env (c : Cause) (s : State) : (raise c s).env = s.env := rfl

@[simp] theorem halt_params (s : State) : (halt s).params = s.params := rfl
@[simp] theorem halt_phase (s : State) : (halt s).phase = .halted := rfl
@[simp] theorem halt_regs (s : State) : (halt s).regs = s.regs := rfl
@[simp] theorem halt_resp (s : State) : (halt s).resp = s.resp := rfl
@[simp] theorem halt_halted (s : State) : (halt s).halted = true := rfl
@[simp] theorem halt_csN (s : State) : (halt s).csN = s.csN := rfl
@[simp] theorem halt_dataOut (s : State) : (halt s).dataOut = s.dataOut := rfl
@[simp] theorem halt_trace (s : State) : (halt s).trace = s.trace ++ [.halt] := rfl
@[simp] theorem halt_call (s : State) : (halt s).call = s.call := rfl
@[simp] theorem halt_env (s : State) : (halt s).env = s.env := rfl

@[simp] theorem deliver_params (s : State) : (deliver s).params = s.params := rfl
@[simp] theorem deliver_phase (s : State) : (deliver s).phase = .idle := rfl
@[simp] theorem deliver_regs (s : State) : (deliver s).regs = s.regs := rfl
@[simp] theorem deliver_resp (s : State) : (deliver s).resp = { s.resp with valid := false, data := [] } := rfl
@[simp] theorem deliver_halted (s : State) : (deliver s).halted = s.halted := rfl
@[simp] theorem deliver_csN (s : State) : (deliver s).csN = s.csN := rfl
@[simp] theorem deliver_dataOut (s : State) : (deliver s).dataOut = s.dataOut := rfl
@[simp] theorem deliver_trace (s : State) : (deliver s).trace = s.trace ++ [.respond s.resp.status s.resp.cause s.resp.data] := rfl
@[simp] theorem deliver_call (s : State) : (deliver s).call = s.call := rfl
@[simp] theorem deliver_env (s : State) : (deliver s).env = s.env := rfl

@[simp] theorem startPoll_params (c : Cont) (s : State) : (startPoll c s).params = s.params := rfl
@[simp] theorem startPoll_phase (c : Cont) (s : State) : (startPoll c s).phase = .poll := rfl
@[simp] theorem startPoll_regs (c : Cont) (s : State) : (startPoll c s).regs = { s.regs with polls := 0, cont := c } := rfl
@[simp] theorem startPoll_resp (c : Cont) (s : State) : (startPoll c s).resp = s.resp := rfl
@[simp] theorem startPoll_halted (c : Cont) (s : State) : (startPoll c s).halted = s.halted := rfl
@[simp] theorem startPoll_csN (c : Cont) (s : State) : (startPoll c s).csN = s.csN := rfl
@[simp] theorem startPoll_dataOut (c : Cont) (s : State) : (startPoll c s).dataOut = s.dataOut := rfl
@[simp] theorem startPoll_trace (c : Cont) (s : State) : (startPoll c s).trace = s.trace := rfl
@[simp] theorem startPoll_call (c : Cont) (s : State) : (startPoll c s).call = s.call := rfl
@[simp] theorem startPoll_env (c : Cont) (s : State) : (startPoll c s).env = s.env := rfl

@[simp] theorem latch_params (op : Byte) (a l : Word) (d : List Byte) (s : State) : (latch op a l d s).params = s.params := rfl
@[simp] theorem latch_phase (op : Byte) (a l : Word) (d : List Byte) (s : State) : (latch op a l d s).phase = s.phase := rfl
@[simp] theorem latch_regs (op : Byte) (a l : Word) (d : List Byte) (s : State) : (latch op a l d s).regs = { s.regs with op := op, reqAddr := a, reqLen := l, wbuf := d } := rfl
@[simp] theorem latch_resp (op : Byte) (a l : Word) (d : List Byte) (s : State) : (latch op a l d s).resp = s.resp := rfl
@[simp] theorem latch_halted (op : Byte) (a l : Word) (d : List Byte) (s : State) : (latch op a l d s).halted = s.halted := rfl
@[simp] theorem latch_csN (op : Byte) (a l : Word) (d : List Byte) (s : State) : (latch op a l d s).csN = s.csN := rfl
@[simp] theorem latch_dataOut (op : Byte) (a l : Word) (d : List Byte) (s : State) : (latch op a l d s).dataOut = s.dataOut := rfl
@[simp] theorem latch_trace (op : Byte) (a l : Word) (d : List Byte) (s : State) : (latch op a l d s).trace = s.trace := rfl
@[simp] theorem latch_call (op : Byte) (a l : Word) (d : List Byte) (s : State) : (latch op a l d s).call = s.call := rfl
@[simp] theorem latch_env (op : Byte) (a l : Word) (d : List Byte) (s : State) : (latch op a l d s).env = s.env := rfl

@[simp] theorem latchOp_params (op : Byte) (s : State) : (latchOp op s).params = s.params := rfl
@[simp] theorem latchOp_phase (op : Byte) (s : State) : (latchOp op s).phase = s.phase := rfl
@[simp] theorem latchOp_regs (op : Byte) (s : State) : (latchOp op s).regs = { s.regs with op := op } := rfl
@[simp] theorem latchOp_resp (op : Byte) (s : State) : (latchOp op s).resp = s.resp := rfl
@[simp] theorem latchOp_halted (op : Byte) (s : State) : (latchOp op s).halted = s.halted := rfl
@[simp] theorem latchOp_csN (op : Byte) (s : State) : (latchOp op s).csN = s.csN := rfl
@[simp] theorem latchOp_dataOut (op : Byte) (s : State) : (latchOp op s).dataOut = s.dataOut := rfl
@[simp] theorem latchOp_trace (op : Byte) (s : State) : (latchOp op s).trace = s.trace := rfl
@[simp] theorem latchOp_call (op : Byte) (s : State) : (latchOp op s).call = s.call := rfl
@[simp] theorem latchOp_env (op : Byte) (s : State) : (latchOp op s).env = s.env := rfl

@[simp] theorem loadRange_params (a l : Word) (s : State) : (loadRange a l s).params = s.params := rfl
@[simp] theorem loadRange_phase (a l : Word) (s : State) : (loadRange a l s).phase = s.phase := rfl
@[simp] theorem loadRange_regs (a l : Word) (s : State) : (loadRange a l s).regs = { s.regs with cur := a, rem := l } := rfl
@[simp] theorem loadRange_resp (a l : Word) (s : State) : (loadRange a l s).resp = s.resp := rfl
@[simp] theorem loadRange_halted (a l : Word) (s : State) : (loadRange a l s).halted = s.halted := rfl
@[simp] theorem loadRange_csN (a l : Word) (s : State) : (loadRange a l s).csN = s.csN := rfl
@[simp] theorem loadRange_dataOut (a l : Word) (s : State) : (loadRange a l s).dataOut = s.dataOut := rfl
@[simp] theorem loadRange_trace (a l : Word) (s : State) : (loadRange a l s).trace = s.trace := rfl
@[simp] theorem loadRange_call (a l : Word) (s : State) : (loadRange a l s).call = s.call := rfl
@[simp] theorem loadRange_env (a l : Word) (s : State) : (loadRange a l s).env = s.env := rfl

@[simp] theorem clearIdx_params (s : State) : (clearIdx s).params = s.params := rfl
@[simp] theorem clearIdx_phase (s : State) : (clearIdx s).phase = s.phase := rfl
@[simp] theorem clearIdx_regs (s : State) : (clearIdx s).regs = { s.regs with idx := 0 } := rfl
@[simp] theorem clearIdx_resp (s : State) : (clearIdx s).resp = s.resp := rfl
@[simp] theorem clearIdx_halted (s : State) : (clearIdx s).halted = s.halted := rfl
@[simp] theorem clearIdx_csN (s : State) : (clearIdx s).csN = s.csN := rfl
@[simp] theorem clearIdx_dataOut (s : State) : (clearIdx s).dataOut = s.dataOut := rfl
@[simp] theorem clearIdx_trace (s : State) : (clearIdx s).trace = s.trace := rfl
@[simp] theorem clearIdx_call (s : State) : (clearIdx s).call = s.call := rfl
@[simp] theorem clearIdx_env (s : State) : (clearIdx s).env = s.env := rfl

@[simp] theorem countPoll_params (s : State) : (countPoll s).params = s.params := rfl
@[simp] theorem countPoll_phase (s : State) : (countPoll s).phase = s.phase := rfl
@[simp] theorem countPoll_regs (s : State) : (countPoll s).regs = { s.regs with polls := s.regs.polls + 1 } := rfl
@[simp] theorem countPoll_resp (s : State) : (countPoll s).resp = s.resp := rfl
@[simp] theorem countPoll_halted (s : State) : (countPoll s).halted = s.halted := rfl
@[simp] theorem countPoll_csN (s : State) : (countPoll s).csN = s.csN := rfl
@[simp] theorem countPoll_dataOut (s : State) : (countPoll s).dataOut = s.dataOut := rfl
@[simp] theorem countPoll_trace (s : State) : (countPoll s).trace = s.trace := rfl
@[simp] theorem countPoll_call (s : State) : (countPoll s).call = s.call := rfl
@[simp] theorem countPoll_env (s : State) : (countPoll s).env = s.env := rfl

@[simp] theorem accept_params (r : Request) (rest : List Request) (s : State) : (accept r rest s).params = s.params := rfl
@[simp] theorem accept_phase (r : Request) (rest : List Request) (s : State) : (accept r rest s).phase = .check := rfl
@[simp] theorem accept_regs (r : Request) (rest : List Request) (s : State) : (accept r rest s).regs = { s.regs with op := r.op, reqAddr := r.addr, reqLen := r.len, wbuf := if r.op = HostOp.write then r.wdata else [] } := rfl
@[simp] theorem accept_resp (r : Request) (rest : List Request) (s : State) : (accept r rest s).resp = s.resp := rfl
@[simp] theorem accept_halted (r : Request) (rest : List Request) (s : State) : (accept r rest s).halted = s.halted := rfl
@[simp] theorem accept_csN (r : Request) (rest : List Request) (s : State) : (accept r rest s).csN = s.csN := rfl
@[simp] theorem accept_dataOut (r : Request) (rest : List Request) (s : State) : (accept r rest s).dataOut = s.dataOut := rfl
@[simp] theorem accept_trace (r : Request) (rest : List Request) (s : State) : (accept r rest s).trace = s.trace ++ [.accept r] := rfl
@[simp] theorem accept_call (r : Request) (rest : List Request) (s : State) : (accept r rest s).call = s.call := rfl
@[simp] theorem accept_env (r : Request) (rest : List Request) (s : State) : (accept r rest s).env = { s.env with reqs := rest } := rfl

@[simp] theorem engineReset_params (s : State) : (engineReset s).params = s.params := rfl
@[simp] theorem engineReset_phase (s : State) : (engineReset s).phase = .idle := rfl
@[simp] theorem engineReset_regs (s : State) : (engineReset s).regs = Regs.reset := rfl
@[simp] theorem engineReset_resp (s : State) : (engineReset s).resp = Resp.reset := rfl
@[simp] theorem engineReset_halted (s : State) : (engineReset s).halted = false := rfl
@[simp] theorem engineReset_csN (s : State) : (engineReset s).csN = true := rfl
@[simp] theorem engineReset_dataOut (s : State) : (engineReset s).dataOut = [] := rfl
@[simp] theorem engineReset_trace (s : State) : (engineReset s).trace = [] := rfl
@[simp] theorem engineReset_call (s : State) : (engineReset s).call = none := rfl
@[simp] theorem engineReset_env (s : State) : (engineReset s).env = { s.env with resetIn := false } := rfl

@[simp] theorem sleepStep_params (s : State) : (sleepStep s).params = s.params := rfl
@[simp] theorem sleepStep_phase (s : State) : (sleepStep s).phase = .poll := rfl
@[simp] theorem sleepStep_regs (s : State) : (sleepStep s).regs = s.regs := rfl
@[simp] theorem sleepStep_resp (s : State) : (sleepStep s).resp = s.resp := rfl
@[simp] theorem sleepStep_halted (s : State) : (sleepStep s).halted = s.halted := rfl
@[simp] theorem sleepStep_csN (s : State) : (sleepStep s).csN = s.csN := rfl
@[simp] theorem sleepStep_dataOut (s : State) : (sleepStep s).dataOut = s.dataOut := rfl
@[simp] theorem sleepStep_trace (s : State) : (sleepStep s).trace = s.trace ++ [.sleep] := rfl
@[simp] theorem sleepStep_call (s : State) : (sleepStep s).call = s.call := rfl
@[simp] theorem sleepStep_env (s : State) : (sleepStep s).env = s.env := rfl

@[simp] theorem chunkStep_params (s : State) : (chunkStep s).params = s.params := rfl
@[simp] theorem chunkStep_phase (s : State) : (chunkStep s).phase = .poll := rfl
@[simp] theorem chunkStep_regs (s : State) : (chunkStep s).regs = { s.regs with chunk := BitVec.ofNat 9 (chunkSize s.params s.regs.cur s.regs.rem), polls := 0, cont := .wren } := rfl
@[simp] theorem chunkStep_resp (s : State) : (chunkStep s).resp = s.resp := rfl
@[simp] theorem chunkStep_halted (s : State) : (chunkStep s).halted = s.halted := rfl
@[simp] theorem chunkStep_csN (s : State) : (chunkStep s).csN = s.csN := rfl
@[simp] theorem chunkStep_dataOut (s : State) : (chunkStep s).dataOut = s.dataOut := rfl
@[simp] theorem chunkStep_trace (s : State) : (chunkStep s).trace = s.trace := rfl
@[simp] theorem chunkStep_call (s : State) : (chunkStep s).call = s.call := rfl
@[simp] theorem chunkStep_env (s : State) : (chunkStep s).env = s.env := rfl

end Sys2Proof.Machine
end

