-- ==== Sys2Proof/Laws/Ops.lean ====
section
/-! SUPPORT. One lemma per shared operation that says what it can do: the environment's answers, the segments of a window, the
transaction, the two framing primitives, and the shapes the meanings share. -/

namespace Sys2Proof.Machine

/-! The environment's answers. -/

@[simp] theorem fillRx_length (k : Nat) (given : List Byte) (n : Nat) : (fillRx k given n).length = n := by
  simp [fillRx]; omega

/-- A script that gives all n bytes is what is received. -/
theorem fillRx_full {given : List Byte} {n : Nat} (k : Nat) (h : given.length = n) : fillRx k given n = given := by
  subst h; simp [fillRx]

@[simp] theorem Env.rxAt_length (e : Env) (k n : Nat) : (e.rxAt k n).length = n := by
  unfold Env.rxAt; split <;> simp

@[simp] theorem Env.skip_zero (e : Env) : e.skip 0 = e := by simp [Env.skip]

@[simp] theorem Env.skip_skip (e : Env) (j k : Nat) : (e.skip j).skip k = e.skip (j + k) := by
  simp [Env.skip, Nat.add_assoc]

@[simp] theorem Env.skip_reqs (e : Env) (k : Nat) : (e.skip k).reqs = e.reqs := rfl

@[simp] theorem Env.skip_resetIn (e : Env) (k : Nat) : (e.skip k).resetIn = e.resetIn := rfl

@[simp] theorem Env.skip_draws (e : Env) (k : Nat) : (e.skip k).draws = e.draws + k := rfl

@[simp] theorem Env.skip_okAt (e : Env) (j k : Nat) : (e.skip j).okAt k = e.okAt (j + k) := by
  simp [Env.okAt, Env.skip, Nat.add_assoc]

@[simp] theorem Env.skip_rxAt (e : Env) (j k n : Nat) : (e.skip j).rxAt k n = e.rxAt (j + k) n := by
  simp [Env.rxAt, Env.skip, Nat.add_assoc]

/-! Segments. -/

@[simp] theorem runSeg_ok (q : SegReq) (e : Env) : (runSeg q e).ok = e.okAt 0 := by cases q <;> rfl

@[simp] theorem runSegs_nil (e : Env) : runSegs [] e = [] := rfl

/-- The first segment always runs; the rest only after it succeeded. -/
theorem runSegs_cons (q : SegReq) (qs : List SegReq) (e : Env) :
    runSegs (q :: qs) e = runSeg q e :: (if e.okAt 0 then runSegs qs (e.skip 1) else []) := by
  simp [runSegs]

/-- At most the asked segments run. -/
theorem runSegs_length_le (qs : List SegReq) (e : Env) : (runSegs qs e).length ≤ qs.length := by
  induction qs generalizing e with
  | nil => simp
  | cons q qs ih =>
    rw [runSegs_cons]
    split
    · simpa using ih (e.skip 1)
    · simp

/-- A window in which every segment succeeded executed all of them (R163). -/
theorem runSegs_length_of_ok {qs : List SegReq} {e : Env} (h : (runSegs qs e).all Seg.ok = true) :
    (runSegs qs e).length = qs.length := by
  induction qs generalizing e with
  | nil => simp
  | cons q qs ih =>
    rw [runSegs_cons] at h ⊢
    by_cases h0 : e.okAt 0 = true
    · simp only [h0, if_true, List.all_cons, Bool.and_eq_true] at h ⊢
      simpa using ih h.2
    · simp [h0] at h

/-! The bytes that go out. -/

theorem Seg.driven_of_ok {g : Seg} (fill : Byte) (sent : Nat) (h : g.ok = true) : g.driven fill sent = g.intended fill := by
  simp [Seg.driven, h]

theorem Seg.driven_of_failed {g : Seg} (fill : Byte) (sent : Nat) (h : g.ok = false) :
    g.driven fill sent = (g.intended fill).take sent := by
  simp [Seg.driven, h]

/-- Of every segment a prefix goes out (R157). -/
theorem Seg.driven_prefix (fill : Byte) (sent : Nat) (g : Seg) : g.driven fill sent <+: g.intended fill := by
  unfold Seg.driven
  split
  · exact List.prefix_rfl
  · exact List.take_prefix _ _

@[simp] theorem drivenBytes_nil (fill : Byte) (draw : Nat) : drivenBytes fill draw [] = [] := rfl

/-- Where no segment failed, all bytes went out (R153, R154). -/
theorem drivenBytes_of_ok {gs : List Seg} (fill : Byte) (draw : Nat) (h : gs.all Seg.ok = true) :
    drivenBytes fill draw gs = gs.flatMap (Seg.intended fill) := by
  induction gs generalizing draw with
  | nil => rfl
  | cons g gs ih =>
    simp only [List.all_cons, Bool.and_eq_true] at h
    rw [drivenBytes, Seg.driven_of_ok _ _ h.1, ih _ h.2, List.flatMap_cons]

/-- Where the last segment failed, all bytes of the segments before it went out, and a prefix of its own (R157). -/
theorem drivenBytes_failed_last {gs : List Seg} {g : Seg} (fill : Byte) (draw : Nat) (h : gs.all Seg.ok = true)
    (hg : g.ok = false) :
    drivenBytes fill draw (gs ++ [g]) =
      gs.flatMap (Seg.intended fill) ++ (g.intended fill).take (Config.sentBytes (draw + gs.length)) := by
  induction gs generalizing draw with
  | nil => simp [drivenBytes, Seg.driven_of_failed _ _ hg]
  | cons a gs ih =>
    simp only [List.all_cons, Bool.and_eq_true] at h
    rw [List.cons_append, drivenBytes, Seg.driven_of_ok _ _ h.1, ih _ h.2, List.flatMap_cons, List.append_assoc,
      List.length_cons, Nat.add_assoc, Nat.add_comm 1]

/-! The transaction. -/

/-- The state after a transaction: chip-select high, the bytes that went out on the data output, one `Txn` event more, the
executed segments' answers used up. -/
theorem transaction_st (qs : List SegReq) (s : State) :
    (transaction qs s).st =
      { s with csN := true, dataOut := drivenBytes s.params.rxFill s.env.draws (runSegs qs s.env),
               trace := s.trace ++ [.txn (runSegs qs s.env)], env := s.env.skip (runSegs qs s.env).length } := rfl

@[simp] theorem transaction_ok (qs : List SegReq) (s : State) :
    (transaction qs s).ok = (runSegs qs s.env).all Seg.ok := rfl

@[simp] theorem transaction_rx (qs : List SegReq) (s : State) :
    (transaction qs s).rx = (runSegs qs s.env).flatMap Seg.received := rfl

@[simp] theorem transaction_st_params (qs : List SegReq) (s : State) : (transaction qs s).st.params = s.params := rfl

@[simp] theorem transaction_st_phase (qs : List SegReq) (s : State) : (transaction qs s).st.phase = s.phase := rfl

@[simp] theorem transaction_st_regs (qs : List SegReq) (s : State) : (transaction qs s).st.regs = s.regs := rfl

@[simp] theorem transaction_st_resp (qs : List SegReq) (s : State) : (transaction qs s).st.resp = s.resp := rfl

@[simp] theorem transaction_st_halted (qs : List SegReq) (s : State) : (transaction qs s).st.halted = s.halted := rfl

@[simp] theorem transaction_st_csN (qs : List SegReq) (s : State) : (transaction qs s).st.csN = true := rfl

@[simp] theorem transaction_st_dataOut (qs : List SegReq) (s : State) :
    (transaction qs s).st.dataOut = drivenBytes s.params.rxFill s.env.draws (runSegs qs s.env) := rfl

@[simp] theorem transaction_st_call (qs : List SegReq) (s : State) : (transaction qs s).st.call = s.call := rfl

@[simp] theorem transaction_st_trace (qs : List SegReq) (s : State) :
    (transaction qs s).st.trace = s.trace ++ [.txn (runSegs qs s.env)] := rfl

@[simp] theorem transaction_st_env (qs : List SegReq) (s : State) :
    (transaction qs s).st.env = s.env.skip (runSegs qs s.env).length := rfl

/-! The framing primitives as transactions over their segments. -/

@[simp] theorem transmit_empty (op : Byte) (a : WireAddr) (s : State) :
    transmit op a [] s = transaction [.w (op :: be3 a)] s := rfl

theorem transmit_payload (op : Byte) (a : WireAddr) {p : List Byte} (h : p ≠ []) (s : State) :
    transmit op a p s = transaction [.w (op :: be3 a), .w p] s := by
  simp [transmit, writeUnlessEmpty, h]

@[simp] theorem transmitAndReceive_command (op : Byte) (s : State) :
    transmitAndReceive [op] 0 0 s = transaction [.w [op]] s := rfl

theorem transmitAndReceive_read (op : Byte) (tl : List Byte) {n : Nat} (h : n ≠ 0) (s : State) :
    transmitAndReceive (op :: tl) n 0 s = transaction [.w (op :: tl), .r n] s := by
  simp [transmitAndReceive, writeUnlessEmpty, readUnlessZero, h]

theorem transmitAndReceive_dummy (op : Byte) (tl : List Byte) {n d : Nat} (h : n ≠ 0) (s : State) :
    transmitAndReceive (op :: tl) n d s =
      transaction (.w (op :: tl) :: (writeUnlessEmpty (List.replicate d s.params.dummyValue) ++ [.r n])) s := by
  simp [transmitAndReceive, writeUnlessEmpty, readUnlessZero, h]

/-! The shapes the meanings share. -/

theorem orBusFailure_of_ok {r : TxnResult} (k : State → State) (h : r.ok = true) : orBusFailure r k = k r.st := by
  simp [orBusFailure, h]

theorem orBusFailure_of_failed {r : TxnResult} (k : State → State) (h : r.ok = false) :
    orBusFailure r k = raise .busFailure r.st := by
  simp [orBusFailure, h]

theorem continueIn_here {p : Phase} {s : State} (k : State → State) (h : s.phase = p) : continueIn p k s = k s := by
  simp [continueIn, h]

theorem continueIn_elsewhere {p : Phase} {s : State} (k : State → State) (h : s.phase ≠ p) :
    continueIn p k s = s := by
  simp [continueIn, h]

end Sys2Proof.Machine
end

