-- ==== Sys2Proof/Laws/Operands.lean ====
section
/-! SUPPORT. What the checks on parameters and operands say in plain arithmetic, and what the operands that the engine assembles
are. -/

namespace Sys2Proof

/-! The parameters. -/

theorem Params.geometryOk_iff (p : Params) : p.geometryOk = true ↔
    p.ppMin = 1 ∧ p.ppMax = p.pageSize ∧ p.pageSize < 2 ^ 9 ∧ p.sectorSize ∣ p.block32Size ∧ p.sectorSize ∣ p.block64Size ∧
      p.pageSize ∣ p.wireSpace ∧ p.block32Size ∣ p.wireSpace ∧ p.block64Size ∣ p.wireSpace := by
  simp [Params.geometryOk, Nat.dvd_iff_mod_eq_zero, and_assoc]

theorem Params.wf_iff (p : Params) : p.wf = true ↔
    p.geometryOk = true ∧ p.wireAddrBits.val ≤ p.addrBits.val ∧ p.wordBits = 8 ∧ p.maxPolls ≠ some 0 := by
  simp [Params.wf, and_assoc]

/-- The spec's defaults are parameters that a block can have. -/
theorem Params.default_wf : Params.default.wf = true := by decide

theorem Params.wireSpace_pos (p : Params) : 0 < p.wireSpace := Nat.two_pow_pos _

theorem Params.addrSpace_pos (p : Params) : 0 < p.addrSpace := Nat.two_pow_pos _

theorem Params.lenSpace_pos (p : Params) : 0 < p.lenSpace := Nat.two_pow_pos _

theorem Params.wireSpace_le (p : Params) : p.wireSpace ≤ 2 ^ 24 :=
  Nat.pow_le_pow_right (by decide) (Nat.le_of_lt_succ p.wireAddrBits.isLt)

theorem Params.addrSpace_le (p : Params) : p.addrSpace ≤ 2 ^ 32 :=
  Nat.pow_le_pow_right (by decide) (Nat.le_of_lt_succ p.addrBits.isLt)

theorem Params.lenSpace_le (p : Params) : p.lenSpace ≤ 2 ^ 32 :=
  Nat.pow_le_pow_right (by decide) (Nat.le_of_lt_succ p.lenBits.isLt)

/-- The wire's address space divides the container's (R9). -/
theorem Params.wireSpace_dvd {p : Params} (h : p.wf = true) : p.wireSpace ∣ p.addrSpace :=
  Nat.pow_dvd_pow 2 ((Params.wf_iff p).mp h).2.1

/-- A page holds at least one byte. -/
theorem Params.pageSize_pos {p : Params} (h : p.geometryOk = true) : 0 < p.pageSize :=
  Nat.pos_of_dvd_of_pos ((Params.geometryOk_iff p).mp h).2.2.2.2.2.1 p.wireSpace_pos

/-- A sector divides the wire's address space, so it holds at least one byte. -/
theorem Params.sectorSize_dvd {p : Params} (h : p.geometryOk = true) : p.sectorSize ∣ p.wireSpace := by
  rw [Params.geometryOk_iff] at h; exact h.2.2.2.1.trans h.2.2.2.2.2.2.1

/-! The checks on operands. -/

theorem payloadSizeOk_iff (p : Params) (data : List Byte) :
    payloadSizeOk p data = true ↔ p.ppMin ≤ data.length ∧ data.length ≤ p.ppMax := by
  simp [payloadSizeOk]

theorem fitsPage_iff (p : Params) (a : WireAddr) (data : List Byte) :
    fitsPage p a data = true ↔ a.toNat % p.pageSize + data.length ≤ p.pageSize := by
  simp [fitsPage]

theorem unitAligned_iff (size : Nat) (a : WireAddr) : unitAligned size a = true ↔ a.toNat % size = 0 := by
  simp [unitAligned]

namespace Machine

theorem dutyOk_iff (p : Params) (addr : Word) (len : Nat) :
    dutyOk p addr len = true ↔ addr.toNat < p.addrSpace ∧ len < p.lenSpace ∧ addr.toNat + len ≤ p.addrSpace := by
  unfold dutyOk; rw [decide_eq_true_iff]

theorem eraseAligned_iff (p : Params) (addr len : Word) :
    eraseAligned p addr len = true ↔ addr.toNat % p.sectorSize = 0 ∧ len.toNat % p.sectorSize = 0 := by
  simp [eraseAligned]

theorem unitFits_iff (p : Params) (u : EraseUnit) (cur rem : Word) :
    unitFits p u cur rem = true ↔ cur.toNat % u.size p = 0 ∧ u.size p ≤ rem.toNat := by
  simp [unitFits]

/-- R115: the wire address is the host's address modulo 2^WIRE_ADDR_BITS. -/
theorem wireAddr_toNat (p : Params) (cur : Word) : (wireAddr p cur).toNat = cur.toNat % p.wireSpace := by
  unfold wireAddr
  rw [BitVec.toNat_ofNat, Nat.mod_eq_of_lt (Nat.lt_of_lt_of_le (Nat.mod_lt _ p.wireSpace_pos) p.wireSpace_le)]

/-- With the 24 bits of R115 the wire address is the field `cur[23:0]`. -/
theorem wireAddr_eq_extract {p : Params} (h : p.wireAddrBits = 24) (cur : Word) : wireAddr p cur = cur.extractLsb' 0 24 := by
  apply BitVec.eq_of_toNat_eq
  rw [wireAddr_toNat, Params.wireSpace, h]; simp

theorem addrAdd_toNat (p : Params) (cur x : Word) : (addrAdd p cur x).toNat = (cur.toNat + x.toNat) % p.addrSpace := by
  unfold addrAdd
  rw [BitVec.toNat_ofNat, Nat.mod_eq_of_lt (Nat.lt_of_lt_of_le (Nat.mod_lt _ p.addrSpace_pos) p.addrSpace_le)]

/-- R139: where the sum stays below 2^ADDR_BITS, nothing wraps. -/
theorem addrAdd_of_lt {p : Params} {cur x : Word} (h : cur.toNat + x.toNat < p.addrSpace) : addrAdd p cur x = cur + x := by
  apply BitVec.eq_of_toNat_eq
  have := p.addrSpace_le
  rw [addrAdd_toNat, BitVec.toNat_add, Nat.mod_eq_of_lt h, Nat.mod_eq_of_lt (by omega)]

/-- With the 32 bits of R9 it is the 32-bit sum. -/
theorem addrAdd_eq_add {p : Params} (h : p.addrBits = 32) (cur x : Word) : addrAdd p cur x = cur + x := by
  apply BitVec.eq_of_toNat_eq
  rw [addrAdd_toNat, BitVec.toNat_add, Params.addrSpace, h]; rfl

/-- The size of a unit is a multiple of the sector and divides the wire's address space (R8). -/
theorem EraseUnit.size_dvd {p : Params} (h : p.geometryOk = true) (u : EraseUnit) :
    p.sectorSize ∣ u.size p ∧ u.size p ∣ p.wireSpace := by
  have hs := Params.sectorSize_dvd h
  rw [Params.geometryOk_iff] at h
  cases u
  · exact ⟨Nat.dvd_refl _, hs⟩
  · exact ⟨h.2.2.2.1, h.2.2.2.2.2.2.1⟩
  · exact ⟨h.2.2.2.2.1, h.2.2.2.2.2.2.2⟩

/-- The unit that is selected fits (R262). -/
theorem selectUnit_fits {p : Params} {cur rem : Word} {u : EraseUnit} (h : selectUnit p cur rem = some u) :
    unitFits p u cur rem = true := by
  unfold selectUnit at h
  split at h
  · simp_all
  · split at h
    · simp_all
    · split at h <;> simp_all

/-- R265: a sector-aligned address with a sector or more left has a unit. -/
theorem selectUnit_of_aligned {p : Params} {cur rem : Word} (h : eraseAligned p cur rem = true) (h0 : rem ≠ 0) :
    ∃ u, selectUnit p cur rem = some u := by
  rw [eraseAligned_iff] at h
  have hr : rem.toNat ≠ 0 := fun e => h0 (BitVec.eq_of_toNat_eq (by simpa using e))
  have hs : unitFits p .sector cur rem = true :=
    (unitFits_iff ..).mpr ⟨h.1, Nat.le_of_dvd (Nat.pos_of_ne_zero hr) (Nat.dvd_of_mod_eq_zero h.2)⟩
  unfold selectUnit; rw [hs]; repeat' split
  all_goals first | exact ⟨_, rfl⟩ | contradiction

end Machine

end Sys2Proof
end

