-- ==== Sys2Proof/Laws/PerInstr.lean ====
section
/-! SUPPORT. One statement per instruction: its words begin with the opcode that its row of the opcode table gives, and have the
length its format gives. -/

namespace Sys2Proof.Laws.EncodedOpcode

/-- The opcode of an instruction's row in the opcode table, as the table writes it (R102, R118). -/
def rowOpcode : Instr → Byte
  | .identification => 0x90
  | .pageProgram _ _ => 0x02
  | .readData _ _ => 0x03
  | .fastRead _ _ => 0x0B
  | .readStatusRegister1 => 0x05
  | .readStatusRegister2 => 0x35
  | .writeEnable => 0x06
  | .sectorErase _ => 0x20
  | .block32Erase _ => 0x52
  | .block64Erase _ => 0xD8
  | .chipErase => 0xC7
  | .enableReset => 0x66
  | .reset => 0x99
  | .hostInit => 0x01
  | .hostRead _ _ => 0x02
  | .hostWrite _ _ => 0x03
  | .hostErase _ _ => 0x04
  | .hostChipErase => 0x05

/-- How many bytes the instruction's words have: those driven in a window (R107), those of a request (R101, R103). -/
def rowLength (p : Params) : Instr → Nat
  | .identification => 1 + p.idPlaceholders
  | .pageProgram _ data => 4 + data.length
  | .readData _ _ => 4
  | .fastRead _ _ => 4 + p.fastReadDummy
  | .readStatusRegister1 => 1
  | .readStatusRegister2 => 1
  | .writeEnable => 1
  | .sectorErase _ => 4
  | .block32Erase _ => 4
  | .block64Erase _ => 4
  | .chipErase => 1
  | .enableReset => 1
  | .reset => 1
  | .hostInit => 9
  | .hostRead _ _ => 9
  | .hostWrite _ d => 9 + d.length
  | .hostErase _ _ => 9
  | .hostChipErase => 9

/-- The bytes of an instruction's words. -/
def wordBytes : Words → List Byte
  | .request bytes => bytes
  | .window w => w.out

/-- With any parameters, the words of `i` start with its row's opcode and have its row's length. -/
def Statement (i : Instr) : Prop :=
  ∀ p : Params, (wordBytes (encode p i)).head? = some (rowOpcode i) ∧ (wordBytes (encode p i)).length = rowLength p i

theorem identification : Statement .identification := by
  intro p; refine ⟨rfl, ?_⟩
  simp [wordBytes, encode, rowLength]; omega

theorem pageProgram (a : WireAddr) (p : List Byte) : Statement (.pageProgram a p) := by
  intro p; refine ⟨rfl, ?_⟩
  simp [wordBytes, encode, rowLength]; omega

theorem readData (a : WireAddr) (n : Nat) : Statement (.readData a n) := fun _ => ⟨rfl, rfl⟩

theorem fastRead (a : WireAddr) (n : Nat) : Statement (.fastRead a n) := by
  intro p; refine ⟨rfl, ?_⟩
  simp [wordBytes, encode, rowLength]; omega

theorem readStatusRegister1 : Statement .readStatusRegister1 := fun _ => ⟨rfl, rfl⟩

theorem readStatusRegister2 : Statement .readStatusRegister2 := fun _ => ⟨rfl, rfl⟩

theorem writeEnable : Statement .writeEnable := fun _ => ⟨rfl, rfl⟩

theorem sectorErase (a : WireAddr) : Statement (.sectorErase a) := fun _ => ⟨rfl, rfl⟩

theorem block32Erase (a : WireAddr) : Statement (.block32Erase a) := fun _ => ⟨rfl, rfl⟩

theorem block64Erase (a : WireAddr) : Statement (.block64Erase a) := fun _ => ⟨rfl, rfl⟩

theorem chipErase : Statement .chipErase := fun _ => ⟨rfl, rfl⟩

theorem enableReset : Statement .enableReset := fun _ => ⟨rfl, rfl⟩

theorem reset : Statement .reset := fun _ => ⟨rfl, rfl⟩

theorem hostInit : Statement .hostInit := fun _ => ⟨rfl, rfl⟩

theorem hostRead (addr len : Word) : Statement (.hostRead addr len) := fun _ => ⟨rfl, rfl⟩

theorem hostWrite (addr : Word) (wdata : List Byte) : Statement (.hostWrite addr wdata) := by
  intro p; refine ⟨rfl, ?_⟩
  simp [wordBytes, encode, rowLength, requestHeader]; omega

theorem hostErase (addr len : Word) : Statement (.hostErase addr len) := fun _ => ⟨rfl, rfl⟩

theorem hostChipErase : Statement .hostChipErase := fun _ => ⟨rfl, rfl⟩

end Sys2Proof.Laws.EncodedOpcode
end

