-- ==== Sys2Proof/Laws/Safety.lean ====
section
/-! SUPPORT. The parts of the sequencer's invariant as implications, and the bounds on the chunk. -/

namespace Sys2Proof.Machine

theorem writeLoopOk_iff (s : State) : writeLoopOk s = true ↔
    (inLoop s = true → s.regs.op = HostOp.write →
      s.regs.rem ≠ 0 ∧ s.regs.idx.toNat + s.regs.rem.toNat = s.regs.reqLen.toNat ∧
        s.regs.cur = s.regs.reqAddr + s.regs.idx ∧
        (s.phase = .chunk ∨ s.regs.chunk.toNat = chunkSize s.params s.regs.cur s.regs.rem)) := by
  unfold writeLoopOk
  cases inLoop s <;> simp [and_assoc]
  by_cases h : s.regs.op = HostOp.write <;> simp [h]

theorem eraseLoopOk_iff (s : State) : eraseLoopOk s = true ↔
    (inLoop s = true → s.regs.op = HostOp.erase →
      s.regs.rem ≠ 0 ∧ s.regs.rem.toNat ≤ s.regs.reqLen.toNat ∧ eraseAligned s.params s.regs.cur s.regs.rem = true ∧
        s.regs.cur = s.regs.reqAddr + (s.regs.reqLen - s.regs.rem) ∧
        (s.phase = .unit ∨ selectUnit s.params s.regs.cur s.regs.rem = some s.regs.unit)) := by
  unfold eraseLoopOk
  cases inLoop s <;> simp [and_assoc]
  by_cases h : s.regs.op = HostOp.erase <;> simp [h]

theorem requestLatched_iff (s : State) : requestLatched s = true ↔
    (inRequest s.phase = true →
      (s.regs.op = HostOp.write → s.regs.wbuf.length = s.regs.reqLen.toNat) ∧
      (s.regs.op ≠ HostOp.write → s.regs.wbuf = []) ∧
      requestDutyOk s.params ⟨s.regs.op, s.regs.reqAddr, s.regs.reqLen, s.regs.wbuf⟩ = true) := by
  unfold requestLatched
  cases inRequest s.phase <;> simp
  by_cases h : s.regs.op = HostOp.write <;> simp [h]

/-- R139 for one of the three operations it binds. -/
theorem requestDutyOk_iff (p : Params) (r : Request) : requestDutyOk p r = true ↔
    (r.op = HostOp.read ∨ r.op = HostOp.write ∨ r.op = HostOp.erase →
      r.addr.toNat < p.addrSpace ∧ r.len.toNat < p.lenSpace ∧ r.addr.toNat + r.len.toNat ≤ p.addrSpace) := by
  unfold requestDutyOk
  split
  · rename_i h; rw [dutyOk_iff]; simp only [h, true_imp_iff]
  · rename_i h; simp only [h, false_imp_iff]

theorem readReady_iff (s : State) : readReady s = true ↔
    (s.phase = .readTxn → s.regs.rem ≠ 0 ∧ s.regs.rem = s.regs.reqLen ∧ s.regs.cur = s.regs.reqAddr) := by
  unfold readReady
  by_cases h : s.phase = .readTxn <;> simp [h, and_assoc]

theorem pollsBounded_iff (s : State) : pollsBounded s = true ↔
    ∀ n, s.params.maxPolls = some n → s.phase = .poll ∨ s.phase = .sleep → s.regs.polls < n := by
  unfold pollsBounded
  cases s.params.maxPolls <;> simp
  by_cases h : s.phase = .poll <;> by_cases h' : s.phase = .sleep <;> simp [h, h']

theorem respWellFormed_iff (s : State) : respWellFormed s = true ↔
    (s.resp.status = .ok → s.resp.cause = .none) ∧ (s.resp.status = .err → s.resp.cause ≠ .none ∧ s.resp.data = []) ∧
      (s.resp.data = [] ∨ (s.phase = .resp ∧ s.regs.op = HostOp.read)) := by
  unfold respWellFormed
  cases s.resp.status <;> simp

/-- A chunk fits its 9-bit register (R23, R241). -/
theorem chunkSize_toNat {p : Params} (hp : p.geometryOk = true) (cur rem : Word) :
    (BitVec.ofNat 9 (chunkSize p cur rem)).toNat = chunkSize p cur rem := by
  have := ((Params.geometryOk_iff p).mp hp).2.2.1
  rw [BitVec.toNat_ofNat, Nat.mod_eq_of_lt]; unfold chunkSize; omega

/-- R241, R244: a chunk of a buffer with bytes left is 1 to PAGE_SIZE bytes, lies in its page, and is no longer than what is left. -/
theorem chunkSize_bounds {p : Params} (hp : p.geometryOk = true) (cur rem : Word) (h : rem ≠ 0) :
    1 ≤ chunkSize p cur rem ∧ chunkSize p cur rem ≤ p.pageSize ∧ cur.toNat % p.pageSize + chunkSize p cur rem ≤ p.pageSize ∧
      chunkSize p cur rem ≤ rem.toNat := by
  have h0 : rem.toNat ≠ 0 := fun e => h (BitVec.eq_of_toNat_eq (by simpa using e))
  have := Nat.mod_lt cur.toNat (Params.pageSize_pos hp)
  unfold chunkSize
  omega

end Sys2Proof.Machine
end

