-- ==== Sys2Proof/Tests/Slice0.lean ====
section
/-! SUPPORT. The model's own tests. Every expected value is written from spec/ (95_test_vectors.md, the opcode tables, the rules
named in the comments); none is an output of the model. After them, one witness for each obligation that has hypotheses. -/

open Sys2Proof Sys2Proof.Machine

/-! ## Helpers -/

/-- The reset state with these answers to come. -/
def Test.answered (l : List SegAnswer) : State := { State.reset with env := { Env.reset with answers := l } }

/-- A state in phase p with these registers and these answers to come. -/
def Test.at (p : Phase) (r : Regs) (l : List SegAnswer) : State := { Test.answered l with phase := p, regs := r }

/-- A segment that succeeds, with these bytes from the device. -/
def Test.good (rx : List Byte) : SegAnswer := ⟨true, rx⟩

/-- A segment that fails. -/
def Test.bad : SegAnswer := ⟨false, []⟩

/-- The bytes 0, 1, … n−1, the pattern P(n) of 95_test_vectors.md. -/
def Test.pattern (n : Nat) : List Byte := (List.range n).map (BitVec.ofNat 8)

/-- The registers of a WRITE in its loop. -/
def Test.writing (addr : Word) (data : List Byte) (chunk : BitVec 9) : Regs :=
  { Regs.reset with
    op := 0x03, reqAddr := addr, reqLen := BitVec.ofNat 32 data.length, wbuf := data, cur := addr,
    rem := BitVec.ofNat 32 data.length, chunk := chunk }

/-- The registers of an ERASE in its loop. -/
def Test.erasing (addr len : Word) (u : EraseUnit) : Regs :=
  { Regs.reset with op := 0x04, reqAddr := addr, reqLen := len, cur := addr, rem := len, unit := u }

/-- The registers of a request latched in CHECK. -/
def Test.latched (op : Byte) (addr len : Word) (data : List Byte) : Regs :=
  { Regs.reset with op := op, reqAddr := addr, reqLen := len, wbuf := data }

/-- Does an outcome go on in this phase? -/
def Test.nextIn (p : Phase) : Host.Outcome State Fault Refusal → Bool
  | .next t => t.phase == p
  | _ => false

/-- The events an outcome's state holds. -/
def Test.events : Host.Outcome State Fault Refusal → List Event
  | .next t => t.trace
  | _ => []

/-- The registers an outcome's state holds, as a test of them. -/
def Test.regsSatisfy (f : Regs → Bool) : Host.Outcome State Fault Refusal → Bool
  | .next t => f t.regs
  | _ => false

/-- The response registers an outcome's state holds. -/
def Test.respIs (st : Status) (c : Cause) (d : List Byte) : Host.Outcome State Fault Refusal → Bool
  | .next t => t.phase == .resp && t.resp.status == st && t.resp.cause == c && t.resp.data == d
  | _ => false

/-! ## WellFormed: an ill-formed term for each check, which the check refuses -/

/-- R107: c ≥ 1. -/
theorem test_wf_empty_payload : (Instr.pageProgram 0 []).WellFormed Params.default = false := by decide

/-- R107: c ≤ 256. -/
theorem test_wf_long_payload : (Instr.pageProgram 0 (List.replicate 257 0)).WellFormed Params.default = false := by
  simp only [Instr.WellFormed, payloadSizeOk, List.length_replicate]; decide

/-- R116: (a mod 256) + c ≤ 256. -/
theorem test_wf_crossing_payload :
    (Instr.pageProgram 0x0001FF [1, 2]).WellFormed Params.default = false ∧ (Instr.pageProgram 0x0001FF [1]).WellFormed Params.default = true := by decide

/-- R107: n ≥ 1. -/
theorem test_wf_empty_reads : (Instr.readData 0 0).WellFormed Params.default = false ∧ (Instr.fastRead 0 0).WellFormed Params.default = false := by decide

/-- R178 to R180: a unit at a multiple of its size. -/
theorem test_wf_misaligned_units :
    (Instr.sectorErase 0x000800).WellFormed Params.default = false ∧ (Instr.block32Erase 0x001000).WellFormed Params.default = false ∧
      (Instr.block64Erase 0x008000).WellFormed Params.default = false := by decide

/-- R101: the length fits 32 bits. -/
theorem test_wf_long_write : (Instr.hostWrite 0 (List.replicate (2 ^ 32) 0)).WellFormed Params.default = false := by
  simp only [Instr.WellFormed, List.length_replicate]; decide

/-! ## Decode: one word for each constructor, from 95_test_vectors.md F8, L1 and L2 -/

theorem test_decode_identification : decode Params.default (.window ⟨[0x90, 0, 0, 0, 0], 2⟩) = .ok .identification := by decide

theorem test_decode_pageProgram : decode Params.default (.window ⟨[0x02, 0xFF, 0xFF, 0xFF, 0xAA], 0⟩) = .ok (.pageProgram 0xFFFFFF [0xAA]) := by
  decide

theorem test_decode_readData : decode Params.default (.window ⟨[0x03, 0x00, 0x00, 0x10], 2⟩) = .ok (.readData 0x000010 2) := by decide

theorem test_decode_fastRead : decode Params.default (.window ⟨[0x0B, 0x34, 0x56, 0x78, 0x00], 1⟩) = .ok (.fastRead 0x345678 1) := by decide

theorem test_decode_readStatusRegister1 : decode Params.default (.window ⟨[0x05], 1⟩) = .ok .readStatusRegister1 := by decide

theorem test_decode_readStatusRegister2 : decode Params.default (.window ⟨[0x35], 1⟩) = .ok .readStatusRegister2 := by decide

theorem test_decode_writeEnable : decode Params.default (.window ⟨[0x06], 0⟩) = .ok .writeEnable := by decide

theorem test_decode_sectorErase : decode Params.default (.window ⟨[0x20, 0x01, 0x20, 0x00], 0⟩) = .ok (.sectorErase 0x012000) := by decide

theorem test_decode_block32Erase : decode Params.default (.window ⟨[0x52, 0x00, 0x80, 0x00], 0⟩) = .ok (.block32Erase 0x008000) := by decide

theorem test_decode_block64Erase : decode Params.default (.window ⟨[0xD8, 0x01, 0x00, 0x00], 0⟩) = .ok (.block64Erase 0x010000) := by decide

theorem test_decode_chipErase : decode Params.default (.window ⟨[0xC7], 0⟩) = .ok .chipErase := by decide

theorem test_decode_enableReset : decode Params.default (.window ⟨[0x66], 0⟩) = .ok .enableReset := by decide

theorem test_decode_reset : decode Params.default (.window ⟨[0x99], 0⟩) = .ok .reset := by decide

theorem test_decode_hostInit : decode Params.default (.request [1, 0, 0, 0, 0, 0, 0, 0, 0]) = .ok .hostInit := by decide

theorem test_decode_hostRead : decode Params.default (.request [2, 0x12, 0x34, 0x56, 0x78, 0, 0, 0, 1]) = .ok (.hostRead 0x12345678 1) := by
  decide

theorem test_decode_hostWrite : decode Params.default (.request [3, 0x00, 0xFF, 0xFF, 0xFF, 0, 0, 0, 2, 0xAA, 0xBB]) =
    .ok (.hostWrite 0x00FFFFFF [0xAA, 0xBB]) := by decide

theorem test_decode_hostErase : decode Params.default (.request [4, 0, 0, 0x10, 0, 0, 0x02, 0, 0]) = .ok (.hostErase 0x1000 0x20000) := by
  decide

/-- E14: addr and len are ignored (R140). -/
theorem test_decode_hostChipErase : decode Params.default (.request [5, 0xDE, 0xAD, 0xBE, 0xEF, 0, 0, 0, 5]) = .ok .hostChipErase := by decide

/-! ## Decode: refusals by name -/

theorem test_decode_unknown_opcode : decode Params.default (.window ⟨[0x9F], 3⟩) = .error (.unknownOpcode 0x9F) := by decide

theorem test_decode_empty_window : decode Params.default (.window ⟨[], 0⟩) = .error .emptyWindow := by decide

/-- R107: the formats' lengths and constant bytes. -/
theorem test_decode_bad_formats :
    decode Params.default (.window ⟨[0x06, 0x00], 0⟩) = .error (.badFormat 0x06) ∧
      decode Params.default (.window ⟨[0x05], 2⟩) = .error (.badFormat 0x05) ∧
      decode Params.default (.window ⟨[0x90, 0, 0, 0], 2⟩) = .error (.badFormat 0x90) ∧
      decode Params.default (.window ⟨[0x20, 0, 0x10], 0⟩) = .error (.badFormat 0x20) ∧
      decode Params.default (.window ⟨[0x0B, 0, 0, 0, 0x01], 1⟩) = .error (.badFormat 0x0B) := by decide

theorem test_decode_operand_ranges :
    decode Params.default (.window ⟨[0x02, 0, 0, 0], 0⟩) = .error (.badPayloadLength 0x02) ∧
      decode Params.default (.window ⟨[0x02, 0, 0, 0xFF, 1, 2], 0⟩) = .error (.crossesPage 0x02) ∧
      decode Params.default (.window ⟨[0x52, 0, 0x10, 0], 0⟩) = .error (.misalignedUnit 0x52) ∧
      decode Params.default (.window ⟨[0x03, 0, 0, 0], 0⟩) = .error (.emptyRead 0x03) := by decide

/-- R103: a request has exactly its own length. -/
theorem test_decode_request_lengths :
    decode Params.default (.request [3, 0, 0, 0, 0, 0, 0, 0, 2, 9]) = .error .truncatedRequest ∧
      decode Params.default (.request [2, 0, 0, 0, 0, 0, 0, 0]) = .error .truncatedRequest ∧
      decode Params.default (.request [2, 0, 0, 0, 0, 0, 0, 0, 1, 9]) = .error .trailingBytes := by decide

/-- H1, H2: the reserved codes 0x00, 0x06 to 0xFF (R120). -/
theorem test_decode_reserved_ops :
    decode Params.default (.request [0x07, 0, 0, 0, 0, 0, 0, 0, 0]) = .error (.reservedOp 0x07) ∧
      decode Params.default (.request [0x00, 0, 0, 0, 0, 0, 0, 0, 0]) = .error (.reservedOp 0x00) ∧
      decode Params.default (.request [0xFF, 0, 0, 0, 0, 0, 0, 0, 0]) = .error (.reservedOp 0xFF) := by decide

/-- R118: thirteen opcodes, no two alike. -/
theorem test_opcodes_distinct : Opcode.wireOpcodes.length = 13 ∧ Opcode.wireOpcodes.Nodup := by decide

/-- R104, R301: ERR(MISALIGNED) is 01 03, and OK with one byte is 00 00 and the byte. -/
theorem test_response_bytes :
    Response.bytes ⟨.err, .misaligned, []⟩ = [0x01, 0x03] ∧ Response.bytes ⟨.ok, .none, [0x42]⟩ = [0x00, 0x00, 0x42] := by decide

/-! ## The table words -/

/-- A row of 8 bits is a wire command (log 1). -/
theorem test_table_wire :
    decodeTableWord 8 0x90 = some .identification ∧ decodeTableWord 8 0x02 = some (.pageProgram 0 [0]) ∧
      decodeTableWord 8 0x0B = some (.fastRead 0 1) ∧ decodeTableWord 8 0xD8 = some (.block64Erase 0) ∧
      decodeTableWord 8 0x99 = some .reset := by decide

/-- A row of 72 bits is a host request. -/
theorem test_table_host :
    decodeTableWord 72 0x01 = some .hostInit ∧ decodeTableWord 72 0x02 = some (.hostRead 0 0) ∧
      decodeTableWord 72 0x03 = some (.hostWrite 0 []) ∧ decodeTableWord 72 0x04 = some (.hostErase 0 0) ∧
      decodeTableWord 72 0x05 = some .hostChipErase := by decide

/-- The next step runs the placed wire command: one transaction is on the trace. -/
theorem test_place_wire : Test.events (step ((Test.answered [Test.good []]).withFetchWord 8 0x06)) = [.txn [.w [0x06] true]] := by
  decide

/-- The next step runs the placed host operation: READ of nothing is EMPTY_BUFFER (R281). -/
theorem test_place_host : Test.respIs .err .emptyBuffer [] (step (State.reset.withFetchWord 72 0x02)) = true := by decide

/-! ## One step of each instruction, on the spec's vectors -/

/-- X7: swapped identification bytes are ID_MISMATCH. -/
theorem test_identification_swapped : Test.respIs .err .idMismatch []
    (exec .identification (Test.at .idTxn Regs.reset [Test.good [], Test.good [0x17, 0xEF]])) = true := by decide

/-- I5: a failed identification read is BUS_FAILURE, not ID_MISMATCH. -/
theorem test_identification_read_fails : Test.respIs .err .busFailure []
    (exec .identification (Test.at .idTxn Regs.reset [Test.good [], Test.bad])) = true := by decide

/-- F3: a header failure skips the payload. -/
theorem test_pageProgram_header_fails : Test.events
    (exec (.pageProgram 0 [1, 2]) (Test.at .mutate Regs.reset [Test.bad, Test.good []])) =
      [.txn [.w [0x02, 0, 0, 0] false]] := by decide

/-- F4: a payload failure is recorded on the payload. -/
theorem test_pageProgram_payload_fails : Test.events
    (exec (.pageProgram 0 [1, 2]) (Test.at .mutate Regs.reset [Test.good [], Test.bad])) =
      [.txn [.w [0x02, 0, 0, 0] true, .w [1, 2] false]] := by decide

/-- R173's example. -/
theorem test_readData : Test.events (exec (.readData 0x000010 2) (Test.answered [Test.good [], Test.good [0xDE, 0xAD]])) =
    [.txn [.w [0x03, 0x00, 0x00, 0x10] true, .r 2 [0xDE, 0xAD] true]] := by decide

/-- F5 and R2: three segments, and the bytes are the response. -/
theorem test_fastRead :
    let o := exec (.fastRead 0x000100 2) (Test.at .readTxn Regs.reset [Test.good [], Test.good [], Test.good [0xAA, 0xBB]])
    Test.events o = [.txn [.w [0x0B, 0x00, 0x01, 0x00] true, .w [0x00] true, .r 2 [0xAA, 0xBB] true]] ∧
      Test.respIs .ok .none [0xAA, 0xBB] o = true := by decide

/-- F6: a dummy failure skips the receive, and R5: no data reaches the host. -/
theorem test_fastRead_dummy_fails :
    let o := exec (.fastRead 0 4) (Test.at .readTxn Regs.reset [Test.good [], Test.bad])
    Test.events o = [.txn [.w [0x0B, 0, 0, 0] true, .w [0x00] false]] ∧ Test.respIs .err .busFailure [] o = true := by decide

/-- S10: 0x03 passes the gate, BUSY or not. -/
theorem test_gate_passes_on_bit_1 : Test.nextIn .mutate
    (exec .readStatusRegister1 (Test.at .welchk Regs.reset [Test.good [], Test.good [0x03]])) = true := by decide

/-- S8: a failed poll halts. -/
theorem test_poll_failure_halts : Test.events
    (exec .readStatusRegister1 (Test.at .poll Regs.reset [Test.good [], ⟨false, [0x00]⟩])) =
      [.txn [.w [0x05] true, .r 1 [0x00] false], .halt] := by decide

/-- R176's example. -/
theorem test_readStatusRegister2 : Test.events (exec .readStatusRegister2 (Test.answered [Test.good [], Test.good [0x00]])) =
    [.txn [.w [0x35] true, .r 1 [0x00] true]] := by decide

/-- S12: WriteEnable fails. -/
theorem test_writeEnable_fails : Test.respIs .err .busFailure [] (exec .writeEnable (Test.at .wren Regs.reset [Test.bad])) = true := by
  decide

/-- F1: SectorErase at 0x012000. -/
theorem test_sectorErase : Test.events (exec (.sectorErase 0x012000) (Test.at .mutate Regs.reset [Test.good []])) =
    [.txn [.w [0x20, 0x01, 0x20, 0x00] true]] := by decide

/-- E6: Block32Erase at 0. -/
theorem test_block32Erase : Test.nextIn .advance (exec (.block32Erase 0) (Test.at .mutate Regs.reset [Test.good []])) = true := by
  decide

/-- E8: the erase frame fails. -/
theorem test_block64Erase_fails : Test.respIs .err .busFailure []
    (exec (.block64Erase 0) (Test.at .mutate Regs.reset [Test.bad])) = true := by decide

/-- E10: {C7}. -/
theorem test_chipErase : Test.events (exec .chipErase (Test.at .mutate Regs.reset [Test.good []])) = [.txn [.w [0xC7] true]] := by
  decide

/-- I8: EnableReset fails. -/
theorem test_enableReset_fails : Test.respIs .err .busFailure []
    (exec .enableReset (Test.at .rsten Regs.reset [Test.bad])) = true := by decide

/-- X6: after {99} the operation is OK. -/
theorem test_reset : Test.respIs .ok .none [] (exec .reset (Test.at .rst Regs.reset [Test.good []])) = true := by decide

/-- R225: INIT begins with identification. -/
theorem test_hostInit : Test.nextIn .idTxn (exec .hostInit State.reset) = true := by decide

/-- R1: READ of nothing. -/
theorem test_hostRead_empty : Test.respIs .err .emptyBuffer [] (exec (.hostRead 0 0) State.reset) = true := by decide

/-- H3: addr + len > 2^32 is refused. -/
theorem test_hostRead_refused : exec (.hostRead 0xFFFFFFF0 0x20) State.reset = .refused (.hostDuty 0xFFFFFFF0 0x20) := by rfl

/-- W4: WRITE of nothing is OK. -/
theorem test_hostWrite_empty : Test.respIs .ok .none [] (exec (.hostWrite 0x123 []) State.reset) = true := by decide

/-- H5: both misaligned is one MISALIGNED. -/
theorem test_hostErase_misaligned : Test.respIs .err .misaligned [] (exec (.hostErase 0x100 0x1001) State.reset) = true := by decide

/-- E7: addr + len = 2^32 is allowed. -/
theorem test_hostErase_top : Test.nextIn .unit (exec (.hostErase 0xFFFF0000 0x10000) State.reset) = true := by decide

/-- E11: CHIP_ERASE begins with the busy wait. -/
theorem test_hostChipErase : Test.nextIn .poll (exec .hostChipErase State.reset) = true := by decide

/-! ## Parameters and the data output -/

/-- R10, R154: RX_FILL is driven for the byte received (a status read with RX_FILL = 0xA5). -/
theorem test_rx_fill :
    let s := Test.at .welchk Regs.reset [Test.good [], Test.good [0x02]]
    (match exec .readStatusRegister1 { s with params := { Params.default with rxFill := 0xA5 } } with
      | .next t => t.dataOut
      | _ => []) = [0x05, 0xA5] := by decide

/-- R157, I3: of a failed segment some prefix goes out: here of the payload, after the whole header. -/
theorem test_failed_payload_prefix :
    let s := Test.at .mutate Regs.reset [Test.good [], Test.bad]
    ∃ m, (transmit 0x02 0 [1, 2] s).st.dataOut = [0x02, 0, 0, 0] ++ ([1, 2] : List Byte).take m :=
  ⟨Config.sentBytes 1, drivenBytes_failed_last (gs := [.w [0x02, 0, 0, 0] true]) (g := .w [1, 2] false) 0x00 0 rfl rfl⟩

/-- R11, R114, R162: two dummy bytes are one segment of two bytes. -/
theorem test_two_dummy_bytes :
    let s := Test.answered [Test.good [], Test.good [], Test.good [7]]
    Test.events (exec (.fastRead 0 1) { s with params := { Params.default with fastReadDummy := 2 } }) =
      [.txn [.w [0x0B, 0, 0, 0] true, .w [0x00, 0x00] true, .r 1 [7] true]] := by decide

/-- I16, D7: a block with 16-bit lengths refuses a longer READ. -/
theorem test_narrow_length :
    exec (.hostRead 0 0x10000) { State.reset with params := { Params.default with lenBits := 16 } } =
      .refused (.hostDuty 0 0x10000) := by rfl

/-- R107's segments, as the table writes them. -/
theorem test_segments :
    segmentsOf Params.default .identification = [.w [0x90, 0x00, 0x00, 0x00, 0x00], .r 2] ∧
      segmentsOf Params.default (.fastRead 0x000100 2) = [.w [0x0B, 0x00, 0x01, 0x00], .w [0x00], .r 2] ∧
      segmentsOf Params.default (.pageProgram 0 [1]) = [.w [0x02, 0, 0, 0], .w [1]] := by decide

/-- R360: one byte takes 800 ns; R362: Identification, 7 bytes, 5.6 us. -/
theorem test_clocking :
    clockingNs Params.default ⟨[0x06], 0⟩ = 800 ∧ clockingNs Params.default ⟨[0x90, 0, 0, 0, 0], 2⟩ = 5600 := by decide

/-- R8, R12: parameters that no block has. -/
theorem test_params_wf :
    Params.default.wf = true ∧ { Params.default with maxPolls := some 0 }.wf = false ∧
      { Params.default with block32Size := 6000 }.wf = false ∧ { Params.default with ppMax := 255 }.wf = false := by decide

/-! ## Operands -/

/-- W2 and W3: the chunk at 0xF0 with 32 bytes left is 16, at 0x1FF with 1 left it is 1, at 0x100 with 512 left it is 256. -/
theorem test_chunkSize : chunkSize Params.default 0xF0 32 = 16 ∧ chunkSize Params.default 0x1FF 1 = 1 ∧ chunkSize Params.default 0x100 512 = 256 := by decide

/-- E1, E5, E6: the greedy choice. -/
theorem test_selectUnit :
    selectUnit Params.default 0x8000 0x19000 = some .block32 ∧ selectUnit Params.default 0x10000 0x11000 = some .block64 ∧
      selectUnit Params.default 0x20000 0x1000 = some .sector ∧ selectUnit Params.default 0 0x9000 = some .block32 ∧ selectUnit Params.default 0x1000 0x800 = none := by decide

/-- W5: bits 31:24 of the address are dropped. -/
theorem test_wireAddr : wireAddr Params.default 0x01000000 = 0x000000 ∧ wireAddr Params.default 0x12345678 = 0x345678 := by decide

/-- R201: a selector that is neither 1 nor 2 is BAD_STATUS_SELECTOR with no transaction (S2). -/
theorem test_bad_selector :
    (readStatus 3 State.reset fun r => r.st).resp.cause = .badStatusSelector ∧
      (readStatus 3 State.reset fun r => r.st).trace = [] := by decide

/-- W2: the plan of WRITE 0xF0, P(32). -/
theorem test_writePlan : writePlan Params.default 0xF0 (Test.pattern 32) =
    [(0x0000F0, Test.pattern 16), (0x000100, (Test.pattern 32).drop 16)] := by decide

/-- E5: the plan of ERASE 0x8000, 0x18000. -/
theorem test_erasePlan : erasePlan Params.default 0x8000 0x18000 = [(0x008000, .block32), (0x010000, .block64)] := by decide

/-! ## Witnesses: a state and operands that meet all the hypotheses of an obligation together -/

/-- A failed first segment, then nothing scripted. -/
def Test.failing (p : Phase) : State := Test.at p Regs.reset [Test.bad]

/-- DecodeEncodeRoundTrip: an instruction at the boundary of its operands. -/
theorem witness_DecodeEncodeRoundTrip : (Instr.pageProgram 0x000101 (List.replicate 255 0xFF)).WellFormed Params.default = true := by
  simp only [Instr.WellFormed, payloadSizeOk, fitsPage, List.length_replicate]; decide

theorem witness_DecodedIsWellFormed : decode Params.default (.window ⟨[0x0B, 0xFF, 0xFF, 0xFF, 0x00], 65536⟩) = .ok (.fastRead 0xFFFFFF 65536) := by
  decide

theorem witness_WindowEncodesBack : decode Params.default (.window ⟨[0x02, 0, 0, 0xFF, 1], 0⟩) = .ok (.pageProgram 0x0000FF [1]) := by decide

/-- Both clauses: an operation with operands, and INIT with operands that it ignores. -/
theorem witness_RequestEncodesBack :
    decode Params.default (.request [4, 0xFF, 0xFF, 0, 0, 0, 1, 0, 0]) = .ok (.hostErase 0xFFFF0000 0x10000) ∧
      decode Params.default (.request [1, 9, 9, 9, 9, 9, 9, 9, 9]) = .ok .hostInit := by decide

/-- The data of X4. -/
theorem witness_SpecWordsDecode : (Test.pattern 300).length = 300 := by simp [Test.pattern]

theorem witness_OnlyMapOpcodesOnTheBus :
    let s := Test.at .wren (Test.writing 0 [1, 2] 2) [Test.good []]
    s.trace.all Event.opcodeKnown = true ∧ Test.nextIn .welchk (step s) = true := by decide

theorem witness_SegmentsFillTheEncodedWindow :
    isWire (.fastRead 1 2) = true ∧ (Instr.fastRead 1 2).WellFormed Params.default = true ∧
      answersOk (Test.answered [Test.good [], Test.good [], Test.good [7, 8]]).env (segmentsOf Params.default (.fastRead 1 2)).length := by
  unfold answersOk; decide

/-- A member of each list. -/
theorem witness_BytesMovedPerTransaction :
    Instr.writeEnable ∈ [Instr.writeEnable, .enableReset, .reset, .chipErase] ∧
      Instr.readStatusRegister1 ∈ [Instr.readStatusRegister1, .readStatusRegister2] ∧
      Instr.block64Erase 0 ∈ [Instr.sectorErase 0, .block32Erase 0, .block64Erase 0] := by decide

/-- Reserved cause codes at both ends of their range. -/
theorem witness_CauseCodesAreTheTable : 0xB ≤ (0xB : BitVec 4).toNat ∧ 0xB ≤ (0xF : BitVec 4).toNat := by decide

/-- In HALTED, in the middle of a request, with a request held. -/
theorem witness_EngineResetEffect :
    let s : State := { Test.at .halted (Test.writing 0 [1] 1) [] with
      halted := true, env := { Env.reset with reqs := [⟨1, 0, 0, []⟩], resetIn := true } }
    s.env.resetIn = true ∧ Test.nextIn .idle (step s) = true := by decide

/-- The ways an instruction comes to run: a request in CHECK, each phase that issues a wire command, an internal call. -/
theorem witness_StepRunsTheDecodedInstruction :
    let s := Test.at .check (Test.latched 0x03 0xF0 2 [1, 2]) []
    let t := Test.at .mutate (Test.erasing 0x8000 0x8000 .block32) []
    let u : State := { State.reset with call := some ⟨[0x03, 0, 0, 0x10], 2⟩ }
    (s.env.resetIn = false ∧ s.phase = .check ∧
      decode Params.default (.request (requestHeader s.regs.op s.regs.reqAddr s.regs.reqLen ++ s.regs.wbuf)) = .ok (.hostWrite 0xF0 [1, 2])) ∧
    (t.env.resetIn = false ∧ t.phase = .mutate ∧ t.regs.op = 0x04 ∧ phaseInstr t = some (.block32Erase 0x008000)) ∧
    (∀ p ∈ [Phase.idTxn, .poll, .rsten, .rst, .wren, .welchk, .readTxn],
      (Test.at p Regs.reset []).env.resetIn = false ∧ (Test.at p Regs.reset []).phase = p) ∧
    (∀ op ∈ ([0x03, 0x04, 0x05] : List Byte), (Test.at .mutate (Test.latched op 0 1 [7]) []).regs.op = op) ∧
    (u.env.resetIn = false ∧ u.phase = .idle ∧ u.call = some ⟨[0x03, 0, 0, 0x10], 2⟩ ∧
      decode Params.default (.window ⟨[0x03, 0, 0, 0x10], 2⟩) = .ok (.readData 0x10 2)) := by decide

/-- A WRITE at its PageProgram. -/
def Test.atProgram : State :=
  { Test.at .mutate (Test.writing 0xFF [1, 2] 1) [Test.good [], Test.good []] with
    trace := [.accept ⟨3, 0xFF, 2, [1, 2]⟩, .txn [.w [0x05] true, .r 1 [0x00] true], .txn [.w [0x06] true],
      .txn [.w [0x05] true, .r 1 [0x02] true]] }

/-- The invariant holds in the middle of a WRITE. -/
theorem witness_inv_writing : EngineInv Test.atProgram := by constructor <;> decide

theorem witness_IssuedCommandsDecode :
    EngineInv Test.atProgram ∧ phaseInstr Test.atProgram = some (.pageProgram 0x0000FF [1]) :=
  ⟨witness_inv_writing, by decide⟩

/-- Both clauses: an offered WRITE in IDLE; a step in another phase. -/
theorem witness_AcceptanceOnlyInIdle :
    let r : Request := ⟨3, 0xFFFFFFFF, 1, [7]⟩
    let s : State := { State.reset with env := { Env.reset with reqs := [r] } }
    (s.env.resetIn = false ∧ s.phase = .idle ∧ s.call = none ∧ s.env.reqs = [r] ∧ requestDutyOk s.params r = true ∧
      requestComplete r = true) ∧
    (Test.atProgram.phase ≠ .idle ∧ Test.nextIn .advance (step Test.atProgram) = true) := by decide

/-- Both clauses: a phase that is not IDLE; HALTED. -/
theorem witness_HeldRequestChangesNothing :
    Test.atProgram.phase ≠ .idle ∧ (Test.at .halted Regs.reset []).env.resetIn = false ∧
      (Test.at .halted Regs.reset []).phase = .halted := by decide

theorem witness_IdleEngineWaits :
    State.reset.env.resetIn = false ∧ State.reset.phase = .idle ∧ State.reset.call = none ∧ State.reset.env.reqs = [] := by decide

/-- The smallest sum that breaks the duty, for the port and for the meanings; an address and a length too wide for a narrower block
(D7); an operation that is not bound. -/
theorem witness_HostDutyRefused :
    let r : Request := ⟨2, 0xFFFFFFFF, 2, []⟩
    let s : State := { State.reset with env := { Env.reset with reqs := [r] } }
    let p : Params := { Params.default with addrBits := 24, lenBits := 16 }
    (s.env.resetIn = false ∧ s.phase = .idle ∧ s.call = none ∧ s.env.reqs = [r] ∧ (r.op = 0x02 ∨ r.op = 0x03 ∨ r.op = 0x04) ∧
      2 ^ s.params.addrBits.val < r.addr.toNat + r.len.toNat) ∧
    2 ^ State.reset.params.addrBits.val < (0xFFFFFFFF : Word).toNat + (2 : Word).toNat ∧
    2 ^ State.reset.params.addrBits.val < (0xFFFFFFFF : Word).toNat + ([1, 2] : List Byte).length ∧
    2 ^ p.addrBits.val ≤ (0x1000000 : Word).toNat ∧ 2 ^ p.lenBits.val ≤ (0x10000 : Word).toNat ∧
    ((1 : Byte) ≠ 0x02 ∧ (1 : Byte) ≠ 0x03 ∧ (1 : Byte) ≠ 0x04) := by decide

/-- The expected bytes (X6). -/
theorem witness_IdentificationPasses :
    let s := Test.at .idTxn Regs.reset [Test.good [], Test.good [0xEF, 0x17]]
    answersOk s.env 2 ∧ s.env.rxAt 1 s.params.idRx = [s.params.expectedMfr, s.params.expectedDev] := by
  unfold answersOk; decide

/-- A state for each clause: passing, failing on the bus, another answer (I2). -/
theorem witness_IdentificationPassesExactlyWhen :
    let s := Test.failing .idTxn
    let t := Test.at .idTxn Regs.reset [Test.good [], Test.good [0xEF, 0x18]]
    (s.phase = .idTxn ∧ ¬ answersOk s.env (segmentsOf s.params .identification).length) ∧
    (t.phase = .idTxn ∧ answersOk t.env (segmentsOf t.params .identification).length ∧
      t.env.rxAt 1 t.params.idRx ≠ [t.params.expectedMfr, t.params.expectedDev]) := by
  unfold answersOk; decide

theorem witness_SingleByteCommands : answersOk (Test.answered [Test.good []]).env 1 := by unfold answersOk; decide

theorem witness_EraseCommands : answersOk (Test.at .mutate Regs.reset [Test.good []]).env 1 := by unfold answersOk; decide

/-- A payload of 256 bytes, the largest. -/
theorem witness_PageProgramCommand :
    1 ≤ (List.replicate 256 (0 : Byte)).length ∧ Params.default.ppMin ≤ (List.replicate 256 (0 : Byte)).length ∧
      (List.replicate 256 (0 : Byte)).length ≤ Params.default.ppMax ∧
      answersOk (Test.answered [Test.good [], Test.good []]).env 2 := by
  simp only [List.length_replicate, answersOk]; decide

/-- No byte, and 257 bytes. -/
theorem witness_PageProgramSizeRejected :
    ([] : List Byte).length < Params.default.ppMin ∧ Params.default.ppMax < (List.replicate 257 (0 : Byte)).length := by
  simp only [List.length_replicate]; decide

/-- One byte to read, the fewest. -/
theorem witness_NeverIssuedCommands : 1 ≤ 1 ∧ answersOk (Test.answered [Test.good [], Test.good [5]]).env 2 := by
  unfold answersOk; decide

/-- One dummy byte, and none. -/
theorem witness_FastReadCommand :
    let s := Test.answered [Test.good [], Test.good [], Test.good [5]]
    let t : State := { s with params := { Params.default with fastReadDummy := 0 } }
    1 ≤ 1 ∧ (s.params.fastReadDummy ≠ 0 ∧ answersOk s.env (2 + 1)) ∧ (t.params.fastReadDummy = 0 ∧ answersOk t.env (1 + 1)) := by
  unfold answersOk; decide

/-- A state in POLL with a bound of MAX_POLLS and this status byte. -/
def Test.polling (n : Option Nat) (m : PollFailureMode) (l : List SegAnswer) : State :=
  { Test.at .poll Regs.reset l with params := { Params.default with maxPolls := n, pollFailureMode := m } }

/-- A state for each clause: ready at the bound (S6), busy at the bound (S7), busy below it, a failed read in each mode (S8, S9), a
failed opcode. -/
theorem witness_PollOutcomes :
    let ready := Test.polling (some 1) .halt [Test.good [], Test.good [0xFE]]
    let bound := Test.polling (some 1) .halt [Test.good [], Test.good [0x01]]
    let below := Test.polling (some 2) .halt [Test.good [], Test.good [0x01]]
    let failH := Test.polling none .halt [Test.good [], ⟨false, [0x00]⟩]
    let failE := Test.polling none .error [Test.bad, ⟨true, [0x00]⟩]
    (ready.phase = .poll ∧ ready.env.rxAt 1 1 = [0xFE] ∧ answersOk ready.env 2 ∧ (0xFE : Byte).getLsbD 0 = false) ∧
    (bound.phase = .poll ∧ bound.env.rxAt 1 1 = [0x01] ∧ answersOk bound.env 2 ∧ (0x01 : Byte).getLsbD 0 = true ∧
      bound.params.maxPolls = some (bound.regs.polls + 1)) ∧
    (below.phase = .poll ∧ below.env.rxAt 1 1 = [0x01] ∧ answersOk below.env 2 ∧
      below.params.maxPolls ≠ some (below.regs.polls + 1)) ∧
    (failH.phase = .poll ∧ failH.env.rxAt 1 1 = [0x00] ∧ ¬ answersOk failH.env 2 ∧ failH.params.pollFailureMode = .halt) ∧
    (failE.phase = .poll ∧ failE.env.rxAt 1 1 = [0x00] ∧ ¬ answersOk failE.env 2 ∧ failE.params.pollFailureMode = .error) := by
  unfold answersOk; decide

/-- A state for each clause: 0x03 passes, 0xFD does not (S10, S11), a failed read. -/
theorem witness_GateOutcomes :
    let pass := Test.at .welchk Regs.reset [Test.good [], Test.good [0x03]]
    let stop := Test.at .welchk Regs.reset [Test.good [], Test.good [0xFD]]
    let fail := Test.at .welchk Regs.reset [Test.bad, ⟨true, [0x02]⟩]
    (pass.phase = .welchk ∧ pass.env.rxAt 1 1 = [0x03] ∧ answersOk pass.env 2 ∧ (0x03 : Byte).getLsbD 1 = true) ∧
    (stop.phase = .welchk ∧ stop.env.rxAt 1 1 = [0xFD] ∧ answersOk stop.env 2 ∧ (0xFD : Byte).getLsbD 1 = false) ∧
    (fail.phase = .welchk ∧ fail.env.rxAt 1 1 = [0x02] ∧ ¬ answersOk fail.env 2) := by
  unfold answersOk; decide

/-- The last of two segments fails; none fails. -/
theorem witness_FirstFailedSegmentEndsTheWindow :
    let e := (Test.answered [Test.good [], Test.bad]).env
    let f := (Test.answered [Test.good [], Test.good [7]]).env
    let qs := [SegReq.w [0x05], .r 1]
    (1 < (runSegs qs e).length ∧ qs[0]? = some (.w [0x05]) ∧ qs[1]? = some (.r 1)) ∧
    (1 < qs.length ∧ (∀ j < 1, e.okAt j = true) ∧ e.okAt 1 = false) ∧ (∀ j < qs.length, f.okAt j = true) := by decide

theorem witness_FailedHeaderSkipsPayload :
    (Test.failing .mutate).env.okAt 0 = false ∧ Params.default.ppMin ≤ ([1, 2] : List Byte).length ∧
      ([1, 2] : List Byte).length ≤ Params.default.ppMax := by decide

/-- A failed status read outside POLL. -/
theorem witness_FailedTransactionIsBusFailure :
    isWire .readStatusRegister1 = true ∧ payloadSizeOk Params.default [7] = true ∧
      (Test.failing .welchk).phase ≠ .poll ∧ ¬ answersOk (Test.failing .welchk).env (segmentsOf Params.default .readStatusRegister1).length := by
  unfold answersOk; decide

/-- A payload of the right size at the end of its page: only the size is asked for. -/
theorem witness_WireCommandFrame :
    isWire (.readData 1 1) = true ∧ isWire (.pageProgram 0xFF [1, 2]) = true ∧ payloadSizeOk Params.default [1, 2] = true := by decide

/-- Operands for each clause, up to addr + len = 2^32. -/
theorem witness_HostOperationsEnterTheirProcedures :
    let fits := fun (a l : Nat) => l < 2 ^ State.reset.params.lenBits.val ∧ a + l ≤ 2 ^ State.reset.params.addrBits.val
    ((1 : Word) ≠ 0 ∧ fits (0xFFFFFFFF : Word).toNat (1 : Word).toNat) ∧
    (([7] : List Byte) ≠ [] ∧ fits (0xFFFFFFFF : Word).toNat ([7] : List Byte).length) ∧
    ((4096 : Word) ≠ 0 ∧ (0xFFFFF000 : Word).toNat % State.reset.params.sectorSize = 0 ∧
      (4096 : Word).toNat % State.reset.params.sectorSize = 0 ∧ fits (0xFFFFF000 : Word).toNat (4096 : Word).toNat) := by decide

/-- The reserved codes at the ends of their ranges. -/
theorem witness_ReservedOpAnswered :
    let s := fun op => Test.at .check (Test.latched op 1 2 []) []
    (∀ op, (s op).env.resetIn = false ∧ (s op).phase = .check) ∧ (s 0x00).regs.op = 0x00 ∧ 0x06 ≤ (s 0x06).regs.op.toNat ∧
      0x06 ≤ (s 0xFF).regs.op.toNat :=
  ⟨fun _ => ⟨rfl, rfl⟩, by decide, by decide, by decide⟩

theorem witness_EmptyReadAnswered :
    let s := Test.at .check (Test.latched 0x02 0x100 0 []) []
    s.env.resetIn = false ∧ s.phase = .check ∧ s.regs.op = 0x02 ∧ s.regs.reqLen = 0 ∧ s.regs.wbuf = [] ∧
      s.regs.reqAddr.toNat < 2 ^ s.params.addrBits.val := by decide

theorem witness_EmptyWriteAnswered :
    let s := Test.at .check (Test.latched 0x03 0x123 0 []) []
    s.env.resetIn = false ∧ s.phase = .check ∧ s.regs.op = 0x03 ∧ s.regs.reqLen = 0 ∧ s.regs.wbuf = [] ∧
      s.regs.reqAddr.toNat < 2 ^ s.params.addrBits.val := by decide

/-- X3 and E2: a misaligned address, a misaligned length. -/
theorem witness_MisalignedEraseAnswered :
    let s := Test.at .check (Test.latched 0x04 100 4096 []) []
    let t := Test.at .check (Test.latched 0x04 0 0x1001 []) []
    (s.env.resetIn = false ∧ s.phase = .check ∧ s.regs.op = 0x04 ∧ s.regs.wbuf = [] ∧
      s.regs.reqAddr.toNat < 2 ^ s.params.addrBits.val ∧ s.regs.reqLen.toNat < 2 ^ s.params.lenBits.val ∧
      s.regs.reqAddr.toNat + s.regs.reqLen.toNat ≤ 2 ^ s.params.addrBits.val ∧ s.regs.reqAddr.toNat % s.params.sectorSize ≠ 0) ∧
    (t.env.resetIn = false ∧ t.phase = .check ∧ t.regs.op = 0x04 ∧ t.regs.wbuf = [] ∧
      t.regs.reqAddr.toNat < 2 ^ t.params.addrBits.val ∧ t.regs.reqLen.toNat < 2 ^ t.params.lenBits.val ∧
      t.regs.reqAddr.toNat + t.regs.reqLen.toNat ≤ 2 ^ t.params.addrBits.val ∧ t.regs.reqLen.toNat % t.params.sectorSize ≠ 0) := by decide

/-- E3 and E4: an aligned address, a misaligned one. -/
theorem witness_EmptyEraseAnswered :
    let s := Test.at .check (Test.latched 0x04 0 0 []) []
    let t := Test.at .check (Test.latched 0x04 0x100 0 []) []
    (s.env.resetIn = false ∧ s.phase = .check ∧ s.regs.op = 0x04 ∧ s.regs.reqLen = 0 ∧ s.regs.wbuf = [] ∧
      s.regs.reqAddr.toNat < 2 ^ s.params.addrBits.val ∧ s.regs.reqAddr.toNat % s.params.sectorSize = 0) ∧
    (t.env.resetIn = false ∧ t.phase = .check ∧ t.regs.op = 0x04 ∧ t.regs.reqLen = 0 ∧ t.regs.wbuf = [] ∧
      t.regs.reqAddr.toNat < 2 ^ t.params.addrBits.val ∧ t.regs.reqAddr.toNat % t.params.sectorSize ≠ 0) := by decide

/-- The last byte of a page (W3). -/
theorem witness_ChunkStep :
    let s := Test.at .chunk (Test.writing 0x1FF [0x5A] 0) []
    s.env.resetIn = false ∧ s.phase = .chunk ∧ s.regs.rem ≠ 0 ∧ s.params.geometryOk = true := by decide

/-- Registers for each clause: 64 KiB exactly, one byte less, 32 KiB exactly at an odd multiple, a sector, less than a sector. -/
theorem witness_UnitStep :
    let s := Test.at .unit (Test.erasing 0x10000 0x10000 .sector) []
    let fits := fun (a l : Word) (n : Nat) => a.toNat % n = 0 ∧ n ≤ l.toNat
    (s.env.resetIn = false ∧ s.phase = .unit) ∧ fits 0x10000 0x10000 Params.default.block64Size ∧
    (¬ fits 0x10000 0xFFFF Params.default.block64Size ∧ fits 0x10000 0xFFFF Params.default.block32Size) ∧
    (¬ fits 0x8000 0x8000 Params.default.block64Size ∧ fits 0x8000 0x8000 Params.default.block32Size) ∧
    (¬ fits 0x1000 0x1000 Params.default.block64Size ∧ ¬ fits 0x1000 0x1000 Params.default.block32Size ∧ fits 0x1000 0x1000 Params.default.sectorSize) ∧
    (¬ fits 0x1000 0xFFF Params.default.block64Size ∧ ¬ fits 0x1000 0xFFF Params.default.block32Size ∧ ¬ fits 0x1000 0xFFF Params.default.sectorSize) := by decide

/-- ADVANCE of each operation. -/
theorem witness_AdvanceStep :
    let w := Test.at .advance (Test.writing 0 [1, 2] 2) []
    let e := Test.at .advance (Test.erasing 0 0x9000 .block32) []
    let c := Test.at .advance (Test.latched 0x05 0 0 []) []
    (w.env.resetIn = false ∧ w.phase = .advance ∧ w.regs.op = 0x03) ∧
    (e.env.resetIn = false ∧ e.phase = .advance ∧ e.regs.op = 0x04) ∧
    (c.env.resetIn = false ∧ c.phase = .advance ∧ c.regs.op = 0x05) := by decide

theorem witness_SleepStep : (Test.at .sleep Regs.reset []).env.resetIn = false ∧ (Test.at .sleep Regs.reset []).phase = .sleep := by
  decide

theorem witness_ResponseStep : (Test.at .resp Regs.reset []).env.resetIn = false ∧ (Test.at .resp Regs.reset []).phase = .resp := by
  decide

/-- A step with an event, and a step of a phase that has none. -/
theorem witness_TraceGrowsAtItsEnd :
    let s := Test.at .chunk (Test.writing 0 [1] 0) []
    (Test.atProgram.env.resetIn = false ∧ Test.nextIn .advance (step Test.atProgram) = true) ∧
    (s.env.resetIn = false ∧ s.phase = .chunk ∧ Test.nextIn .poll (step s) = true) := by decide

theorem witness_ParametersNeverChange : Test.nextIn .advance (step Test.atProgram) = true := by decide

theorem witness_StepKeepsInv : EngineInv Test.atProgram ∧ Test.nextIn .advance (step Test.atProgram) = true :=
  ⟨witness_inv_writing, by decide⟩

theorem witness_StepKeepsMutationsGuarded :
    EngineInv Test.atProgram ∧ mutationsGuarded Test.atProgram = true ∧ handshakeSoFar Test.atProgram = true ∧
      Test.nextIn .advance (step Test.atProgram) = true :=
  ⟨witness_inv_writing, by decide, by decide, by decide⟩

/-- The last conjunct is for the second clause: the program at the page's last byte is in the next state's trace. -/
theorem witness_StepKeepsPagesFit :
    EngineInv Test.atProgram ∧ pagesFit Test.atProgram = true ∧ Test.nextIn .advance (step Test.atProgram) = true ∧
      Test.atProgram.params.pageSize = 256 ∧
      Event.txn [.w [0x02, 0x00, 0x00, 0xFF] true, .w [1] true] ∈ Test.events (step Test.atProgram) :=
  ⟨witness_inv_writing, by decide, by decide, by decide, by decide⟩

theorem witness_StepKeepsRequestsInOrder :
    EngineInv Test.atProgram ∧ requestsInOrder Test.atProgram = true ∧ Test.nextIn .advance (step Test.atProgram) = true :=
  ⟨witness_inv_writing, by decide, by decide⟩

theorem witness_WriteFollowsItsPlan :
    EngineInv Test.atProgram ∧ WriteProgress Test.atProgram ∧ Test.nextIn .advance (step Test.atProgram) = true := by
  refine ⟨witness_inv_writing, fun _ => ⟨?_, ?_, ?_⟩, by decide⟩
  · intro h; cases h
  · intro _; decide
  · intro h; cases h

/-- An ERASE of two units at its first erase command. -/
def Test.atErase : State :=
  { Test.at .mutate (Test.erasing 0x8000 0x18000 .block32) [Test.good []] with
    trace := [.accept ⟨4, 0x8000, 0x18000, []⟩, .txn [.w [0x05] true, .r 1 [0x00] true], .txn [.w [0x06] true],
      .txn [.w [0x05] true, .r 1 [0x02] true]] }

theorem witness_EraseFollowsItsPlan :
    EngineInv Test.atErase ∧ EraseProgress Test.atErase ∧ Test.nextIn .advance (step Test.atErase) = true := by
  refine ⟨by constructor <;> decide, fun _ => ⟨?_, ?_, ?_⟩, by decide⟩
  · intro h; cases h
  · intro _; decide
  · intro h; cases h

/-- A state for each alternative: one that goes on, HALTED, a refused request in IDLE. -/
theorem witness_UnreachableErrorsStayUnreachable :
    EngineInv Test.atProgram ∧ EngineInv { Test.at .halted Regs.reset [] with halted := true } ∧
      EngineInv { State.reset with env := { Env.reset with reqs := [⟨2, 0xFFFFFFFF, 2, []⟩] } } :=
  ⟨witness_inv_writing, by constructor <;> decide, by constructor <;> decide⟩

/-- A buffer that starts inside a page and ends at the top of the address space. -/
theorem witness_WritePlanCoversTheBuffer :
    Params.default.geometryOk = true ∧ (Test.pattern 16).length < 2 ^ 32 ∧
      (0xFFFFFFF0 : Word).toNat + (Test.pattern 16).length ≤ 2 ^ 32 ∧ Test.pattern 16 ≠ [] := by decide

/-- E7: the range that ends at 2^32. -/
theorem witness_ErasePlanCoversTheRange :
    Params.default.geometryOk = true ∧ (0xFFFF0000 : Word).toNat % Params.default.sectorSize = 0 ∧
      (0x10000 : Word).toNat % Params.default.sectorSize = 0 ∧ (0xFFFF0000 : Word).toNat + (0x10000 : Word).toNat ≤ 2 ^ 32 := by
  decide

/-- Both clauses, on the bytes of S3: busy, busy, ready. -/
theorem witness_BusyWaitPollsUntilReady :
    let bs : List Byte := [0x03, 0x03]
    let s := Test.at .poll Regs.reset (statusScript bs ++ [Test.good []])
    let t := Test.at .poll Regs.reset (statusScript (bs ++ [0x00]) ++ [Test.good []])
    (∀ b ∈ bs, b.getLsbD 0 = true) ∧ (0x00 : Byte).getLsbD 0 = false ∧
    (s.env.resetIn = false ∧ s.phase = .poll ∧ s.params.maxPolls = none ∧ s.csN = true ∧
      s.env.answers = statusScript bs ++ [Test.good []]) ∧
    (t.env.resetIn = false ∧ t.phase = .poll ∧ t.params.maxPolls = none ∧ t.csN = true ∧
      t.env.answers = statusScript (bs ++ [0x00]) ++ [Test.good []]) := by decide

/-- S5: MAX_POLLS = 2 and two busy answers. -/
theorem witness_BusyWaitTimesOut :
    let s := Test.polling (some 2) .halt (statusScript [0x01, 0x01] ++ [])
    s.env.resetIn = false ∧ s.phase = .poll ∧ s.regs.polls = 0 ∧ s.params.maxPolls = some (([0x01] : List Byte).length + 1) ∧
      (∀ x ∈ ([0x01] : List Byte), x.getLsbD 0 = true) ∧ (0x01 : Byte).getLsbD 0 = true ∧
      s.env.answers = statusScript ([0x01] ++ [0x01]) ++ [] := by decide

/-- Both clauses: the gate's read after a WriteEnable, and the identification. -/
theorem witness_StatedDeviceFactsPassTheChecks :
    let s : State := { Test.at .welchk (Test.writing 0 [1] 1) [Test.good [], Test.good [0x02]] with
      trace := [.txn [.w [0x05] true, .r 1 [0x00] true], .txn [.w [0x06] true]] }
    let t := Test.at .idTxn (Test.latched 0x01 0 0 []) [Test.good [], Test.good [0xEF, 0x17]]
    (s.env.resetIn = false ∧ s.phase = .welchk ∧ handshakeSoFar s = true ∧ Test.nextIn .mutate (step s) = true ∧
      latchSetAfterEnable (Test.events (step s)) = true) ∧
    (t.env.resetIn = false ∧ t.phase = .idTxn ∧ t.params.expectedMfr = 0xEF ∧ t.params.expectedDev = 0x17 ∧ t.params.idRx = 2 ∧
      Test.nextIn .poll (step t) = true ∧ (Test.events (step t)).all Event.identifiesAsStated = true) := by decide

/-- Both clauses: a READ on a bus that does not fail, and one whose data segment fails (R6). -/
theorem witness_ReadMakesOneTransaction :
    let s := Test.at .check (Test.latched 0x02 0xFFFFFFFE 2 []) [Test.good [], Test.good [], Test.good [0xAA, 0xBB]]
    let t := Test.at .check (Test.latched 0x02 0 4 []) [Test.good [], Test.good [], Test.bad]
    (s.env.resetIn = false ∧ s.phase = .check ∧ s.regs.op = 0x02 ∧ s.regs.wbuf = [] ∧ s.regs.reqLen ≠ 0 ∧
      s.regs.reqLen.toNat < 2 ^ s.params.lenBits.val ∧
      s.regs.reqAddr.toNat + s.regs.reqLen.toNat ≤ 2 ^ s.params.addrBits.val ∧ s.params.fastReadDummy ≠ 0 ∧ answersOk s.env (2 + 1)) ∧
    (t.env.resetIn = false ∧ t.phase = .check ∧ t.regs.op = 0x02 ∧ t.regs.wbuf = [] ∧ t.regs.reqLen ≠ 0 ∧
      t.regs.reqLen.toNat < 2 ^ t.params.lenBits.val ∧
      t.regs.reqAddr.toNat + t.regs.reqLen.toNat ≤ 2 ^ t.params.addrBits.val ∧ t.params.fastReadDummy ≠ 0 ∧ ¬ answersOk t.env (2 + 1)) := by
  unfold answersOk; decide

/-- P1: INIT with a busy device. -/
theorem witness_InitRunsItsSequence :
    let s := Test.at .check (Test.latched 0x01 0 0 []) ([⟨true, []⟩, ⟨true, [0xEF, 0x17]⟩] ++ statusScript ([0x01] ++ [0x00]) ++
      [⟨true, []⟩, ⟨true, []⟩] ++ [])
    s.env.resetIn = false ∧ s.phase = .check ∧ s.regs.op = 0x01 ∧ s.regs.wbuf = [] ∧ s.params.maxPolls = none ∧ s.params.idRx = 2 ∧
      (∀ x ∈ ([0x01] : List Byte), x.getLsbD 0 = true) ∧ (0x00 : Byte).getLsbD 0 = false ∧
      s.env.answers = [⟨true, []⟩, ⟨true, [s.params.expectedMfr, s.params.expectedDev]⟩] ++ statusScript ([0x01] ++ [0x00]) ++
        [⟨true, []⟩, ⟨true, []⟩] ++ [] := by decide

/-- Two IDLE states with a request offered that differ in every working register and in the response registers. -/
theorem witness_NoRegisterCarriesOver :
    let s : State := { State.reset with env := { Env.reset with reqs := [⟨3, 0, 1, [7]⟩] } }
    let t : State := { s with
      regs := Test.writing 0x100 [1, 2, 3] 3
      resp := { s.resp with status := .err, cause := .timeout, data := [9] } }
    s.phase = .idle ∧ agreeOutsideRegs s t = true := by decide
end

section
/-! SUPPORT. What one step is, phase by phase (10_state.md R25), what a wire command does with its transaction, and what both leave
alone. -/

namespace Sys2Proof.Machine

/-! The step as an equation per phase (R25). -/

section PhaseEquations
variable {s : State}

theorem step_resetIn (h : s.env.resetIn = true) : step s = .next (engineReset s) := by simp [step, h]

theorem step_of_run {i : Instr} {t : State} (hr : s.env.resetIn = false) (hf : fetch s = .run i t) : step s = exec i t := by
  simp [step, hr, hf]

theorem step_of_done {o : Host.Outcome State Fault Refusal} (hr : s.env.resetIn = false) (hf : fetch s = .done o) : step s = o := by
  simp [step, hr, hf]

theorem step_call {w : Window} {i : Instr} (hr : s.env.resetIn = false) (hp : s.phase = .idle) (hc : s.call = some w)
    (hd : decode s.params (.window w) = .ok i) : step s = exec i { s with call := none } :=
  step_of_run hr (by simp [fetch, hp, hc, fetchCall, hd])

theorem step_call_error {w : Window} {e : DecodeError} (hr : s.env.resetIn = false) (hp : s.phase = .idle) (hc : s.call = some w)
    (hd : decode s.params (.window w) = .error e) : step s = .refused (.notAFrame e) :=
  step_of_done hr (by simp [fetch, hp, hc, fetchCall, hd])

theorem step_idle (hr : s.env.resetIn = false) (hp : s.phase = .idle) (hc : s.call = none) : step s = idleStep s :=
  step_of_done hr (by simp [fetch, hp, hc])

theorem step_check {i : Instr} (hr : s.env.resetIn = false) (hp : s.phase = .check)
    (hd : decode s.params (latchedWords s.regs) = .ok i) : step s = exec i s :=
  step_of_run hr (by simp [fetch, hp, fetchCheck, hd])

theorem step_check_reserved {op : Byte} (hr : s.env.resetIn = false) (hp : s.phase = .check)
    (hd : decode s.params (latchedWords s.regs) = .error (.reservedOp op)) : step s = .next (raise .illegalRequest s) :=
  step_of_done hr (by simp [fetch, hp, fetchCheck, hd])

theorem step_check_malformed {e : DecodeError} (hr : s.env.resetIn = false) (hp : s.phase = .check)
    (hd : decode s.params (latchedWords s.regs) = .error e) (he : ∀ op, e ≠ .reservedOp op) :
    step s = .refused .malformedRequest :=
  step_of_done hr (by cases e <;> simp_all [fetch, fetchCheck])

theorem step_chunk (hr : s.env.resetIn = false) (hp : s.phase = .chunk) : step s = .next (chunkStep s) :=
  step_of_done hr (by simp [fetch, hp])

theorem step_unit (hr : s.env.resetIn = false) (hp : s.phase = .unit) : step s = .next (unitStep s) :=
  step_of_done hr (by simp [fetch, hp])

theorem step_sleep (hr : s.env.resetIn = false) (hp : s.phase = .sleep) : step s = .next (sleepStep s) :=
  step_of_done hr (by simp [fetch, hp])

theorem step_advance (hr : s.env.resetIn = false) (hp : s.phase = .advance) : step s = advanceStep s :=
  step_of_done hr (by simp [fetch, hp])

theorem step_resp (hr : s.env.resetIn = false) (hp : s.phase = .resp) : step s = .next (deliver s) :=
  step_of_done hr (by simp [fetch, hp])

theorem step_halted (hr : s.env.resetIn = false) (hp : s.phase = .halted) : step s = .fault .halted :=
  step_of_done hr (by simp [fetch, hp])

/-- The phases in which R25 issues a wire command. -/
def Phase.issues : Phase → Bool
  | .idTxn | .rsten | .rst | .poll | .wren | .welchk | .mutate | .readTxn => true
  | _ => false

theorem fetch_of_issues (h : s.phase.issues = true) : fetch s = fetchIssue s := by
  unfold fetch
  cases hp : s.phase <;> simp [hp, Phase.issues] at h ⊢

theorem issues_of_phaseInstr {i : Instr} (h : phaseInstr s = some i) : s.phase.issues = true := by
  unfold phaseInstr at h
  cases hp : s.phase <;> simp [hp, Phase.issues] at h ⊢

theorem step_issue {i : Instr} (hr : s.env.resetIn = false) (hi : phaseInstr s = some i) : step s = exec i s :=
  step_of_run hr (by simp [fetch_of_issues (issues_of_phaseInstr hi), fetchIssue, hi])

theorem step_issue_none (hr : s.env.resetIn = false) (hp : s.phase.issues = true) (hi : phaseInstr s = none) :
    step s = .fault (.noPhaseRule s.phase) :=
  step_of_done hr (by simp [fetch_of_issues hp, fetchIssue, hi])

end PhaseEquations

/-! The step inverted: what a step without engine reset can be. -/

/-- The steps that go on, one constructor for each row of R25 (an internal call is log 3, waiting in IDLE log 8). -/
inductive PhaseStep (s : State) : State → Prop
  | call {w : Window} {i : Instr} {t : State} (hp : s.phase = .idle) (hc : s.call = some w)
      (hd : decode s.params (.window w) = .ok i) (he : exec i { s with call := none } = .next t) : PhaseStep s t
  | wait (hp : s.phase = .idle) (hc : s.call = none) (hq : s.env.reqs = []) : PhaseStep s s
  | accept {r : Request} {rest : List Request} (hp : s.phase = .idle) (hc : s.call = none) (hq : s.env.reqs = r :: rest)
      (hduty : requestDutyOk s.params r = true) (hdata : requestComplete r = true) : PhaseStep s (accept r rest s)
  | dispatch {i : Instr} {t : State} (hp : s.phase = .check) (hd : decode s.params (latchedWords s.regs) = .ok i)
      (he : exec i s = .next t) : PhaseStep s t
  | reserved {op : Byte} (hp : s.phase = .check) (hd : decode s.params (latchedWords s.regs) = .error (.reservedOp op)) :
      PhaseStep s (raise .illegalRequest s)
  | chunk (hp : s.phase = .chunk) : PhaseStep s (chunkStep s)
  | unit (hp : s.phase = .unit) : PhaseStep s (unitStep s)
  | sleep (hp : s.phase = .sleep) : PhaseStep s (sleepStep s)
  | advance {t : State} (hp : s.phase = .advance) (ha : advanceStep s = .next t) : PhaseStep s t
  | respond (hp : s.phase = .resp) : PhaseStep s (deliver s)
  | issue {i : Instr} {t : State} (hi : phaseInstr s = some i) (he : exec i s = .next t) : PhaseStep s t

/-- IDLE without an internal call waits or accepts. -/
theorem PhaseStep.of_idleStep {s t : State} (hp : s.phase = .idle) (hc : s.call = none) (h : idleStep s = .next t) :
    PhaseStep s t := by
  unfold idleStep at h
  split at h
  · next hq => cases h; exact .wait hp hc hq
  · next hq =>
    split at h
    · cases h
    · split at h
      · cases h
      · next hduty hdata => cases h; exact .accept hp hc hq (by simpa using hduty) (by simpa using hdata)

/-- Without engine reset every step is one of the rows. -/
theorem PhaseStep.of_step {s t : State} (hr : s.env.resetIn = false) (h : step s = .next t) : PhaseStep s t := by
  by_cases hi : s.phase.issues = true
  · cases hpi : phaseInstr s with
    | none => rw [step_issue_none hr hi hpi] at h; cases h
    | some i => exact .issue hpi (step_issue hr hpi ▸ h)
  cases hp : s.phase <;> simp only [hp, Phase.issues, not_true_eq_false] at hi
  case idle =>
    cases hc : s.call with
    | none => exact .of_idleStep hp hc (step_idle hr hp hc ▸ h)
    | some w =>
      cases hd : decode s.params (.window w) with
      | ok i => exact .call hp hc hd (step_call hr hp hc hd ▸ h)
      | error e => rw [step_call_error hr hp hc hd] at h; cases h
  case check =>
    cases hd : decode s.params (latchedWords s.regs) with
    | ok i => exact .dispatch hp hd (step_check hr hp hd ▸ h)
    | error e =>
      by_cases he : ∃ op, e = .reservedOp op
      · obtain ⟨op, rfl⟩ := he
        rw [step_check_reserved hr hp hd] at h
        cases h
        exact .reserved hp hd
      · rw [step_check_malformed hr hp hd (not_exists.mp he)] at h
        cases h
  case chunk => rw [step_chunk hr hp] at h; cases h; exact .chunk hp
  case unit => rw [step_unit hr hp] at h; cases h; exact .unit hp
  case sleep => rw [step_sleep hr hp] at h; cases h; exact .sleep hp
  case advance => exact .advance hp (step_advance hr hp ▸ h)
  case resp => rw [step_resp hr hp] at h; cases h; exact .respond hp
  case halted => rw [step_halted hr hp] at h; cases h

end Sys2Proof.Machine
end

section
/-! SUPPORT. What a wire command is: one transaction of its segments, then an outcome that depends on the phase (R25, R150). -/

namespace Sys2Proof.Machine

/-- What a wire command makes of its transaction (R25); a host operation makes none. -/
def wireOutcome (i : Instr) (r : TxnResult) : State :=
  match i with
  | .identification => identifyOutcome r
  | .pageProgram _ _ | .sectorErase _ | .block32Erase _ | .block64Erase _ | .chipErase => mutated r
  | .readData _ _ | .readStatusRegister2 => orBusFailure r id
  | .fastRead _ _ => orBusFailure r (continueIn .readTxn (respondOk r.rx))
  | .readStatusRegister1 => statusOutcome r.st r
  | .writeEnable => orBusFailure r (continueIn .wren (setPhase .welchk))
  | .enableReset => orBusFailure r (continueIn .rsten (setPhase .rst))
  | .reset => orBusFailure r (continueIn .rst (respondOk []))
  | .hostInit | .hostRead _ _ | .hostWrite _ _ | .hostErase _ _ | .hostChipErase => r.st

/-- A wire command is its transaction and its outcome; a PageProgram is so for a payload of an admitted size. -/
theorem exec_wire {i : Instr} {s : State} (hi : isWire i = true)
    (hp : ∀ a d, i = .pageProgram a d → payloadSizeOk s.params d = true) :
    exec i s = .next (wireOutcome i (transaction (segmentsOf s.params i) s)) := by
  cases i
  case pageProgram a d => simp only [exec, execPageProgram, hp a d rfl, if_true]; rfl
  case hostInit | hostRead | hostWrite | hostErase | hostChipErase => cases hi
  all_goals rfl

/-- A PageProgram's payload of another size is rejected before the bus (R245). -/
theorem exec_pageProgram_rejected {s : State} {a : WireAddr} {d : List Byte} (h : payloadSizeOk s.params d = false) :
    exec (.pageProgram a d) s = .next (raise .badPayloadSize s) := by
  simp [exec, execPageProgram, h]

/-- The window of a list of segments succeeds exactly when the environment answers each of them with success (R163). -/
theorem runSegs_all_ok_iff (qs : List SegReq) (e : Env) : (runSegs qs e).all Seg.ok = true ↔ answersOk e qs.length := by
  induction qs generalizing e with
  | nil => simp [answersOk]
  | cons q qs ih =>
    have hsplit : answersOk e (q :: qs).length ↔ e.okAt 0 = true ∧ answersOk (e.skip 1) qs.length := by
      simp only [answersOk, List.length_cons, Nat.forall_lt_succ_left, Env.skip_okAt, Nat.add_comm 1]
    rw [hsplit, ← ih (e.skip 1), runSegs_cons, List.all_cons, runSeg_ok]
    cases e.okAt 0 <;> simp

/-- The phases in which R25 issues a wire command; in any other the call returns (log 20). -/
def issuedIn (i : Instr) (p : Phase) : Bool :=
  match i with
  | .identification => p == .idTxn
  | .readStatusRegister1 => p == .poll || p == .welchk
  | .enableReset => p == .rsten
  | .reset => p == .rst
  | .writeEnable => p == .wren
  | .fastRead _ _ => p == .readTxn
  | .pageProgram _ _ | .sectorErase _ | .block32Erase _ | .block64Erase _ | .chipErase => p == .mutate
  | .readData _ _ | .readStatusRegister2 | .hostInit | .hostRead _ _ | .hostWrite _ _ | .hostErase _ _ | .hostChipErase => false

/-- How a wire command with the transaction result r can end: the rows of R25 for the phases with a transaction, and the call that
returns (log 20). -/
inductive WireEnd (i : Instr) (r : TxnResult) : State → Prop
  | busFailure (hok : r.ok = false) (hnot : i = .readStatusRegister1 → r.st.phase ≠ .poll) : WireEnd i r (raise .busFailure r.st)
  | returned (hok : r.ok = true) (hp : issuedIn i r.st.phase = false) : WireEnd i r r.st
  | idMismatch (hi : i = .identification) (hok : r.ok = true) (hrx : r.rx ≠ [r.st.params.expectedMfr, r.st.params.expectedDev]) :
      WireEnd i r (raise .idMismatch r.st)
  | identified (hi : i = .identification) (hp : r.st.phase = .idTxn) (hok : r.ok = true)
      (hrx : r.rx = [r.st.params.expectedMfr, r.st.params.expectedDev]) : WireEnd i r (startPoll .rsten r.st)
  | pollHalts (hi : i = .readStatusRegister1) (hp : r.st.phase = .poll) (hok : r.ok = false)
      (hm : r.st.params.pollFailureMode = .halt) : WireEnd i r (halt (countPoll r.st))
  | pollFails (hi : i = .readStatusRegister1) (hp : r.st.phase = .poll) (hok : r.ok = false)
      (hm : r.st.params.pollFailureMode = .error) : WireEnd i r (raise .busFailure (countPoll r.st))
  | pollReady (hi : i = .readStatusRegister1) (hp : r.st.phase = .poll) (hok : r.ok = true)
      (hb : busy (statusByte r.rx) = false) : WireEnd i r (setPhase (contPhase r.st.regs.cont) (countPoll r.st))
  | pollTimeout (hi : i = .readStatusRegister1) (hp : r.st.phase = .poll) (hok : r.ok = true)
      (hb : busy (statusByte r.rx) = true) (hn : boundReached (countPoll r.st) = true) :
      WireEnd i r (raise .timeout (countPoll r.st))
  | pollBusy (hi : i = .readStatusRegister1) (hp : r.st.phase = .poll) (hok : r.ok = true)
      (hb : busy (statusByte r.rx) = true) (hn : boundReached (countPoll r.st) = false) :
      WireEnd i r (setPhase .sleep (countPoll r.st))
  | gatePassed (hi : i = .readStatusRegister1) (hp : r.st.phase = .welchk) (hok : r.ok = true)
      (hw : wel (statusByte r.rx) = true) : WireEnd i r (setPhase .mutate r.st)
  | gateClosed (hi : i = .readStatusRegister1) (hp : r.st.phase = .welchk) (hok : r.ok = true)
      (hw : wel (statusByte r.rx) = false) : WireEnd i r (raise .welNotSet r.st)
  | enabled (hi : i = .writeEnable) (hp : r.st.phase = .wren) (hok : r.ok = true) : WireEnd i r (setPhase .welchk r.st)
  | resetEnabled (hi : i = .enableReset) (hp : r.st.phase = .rsten) (hok : r.ok = true) : WireEnd i r (setPhase .rst r.st)
  | chipReset (hi : i = .reset) (hp : r.st.phase = .rst) (hok : r.ok = true) : WireEnd i r (respondOk [] r.st)
  | mutated (hp : r.st.phase = .mutate) (hi : issuedIn i .mutate = true) (hok : r.ok = true) :
      WireEnd i r (setPhase .advance r.st)
  | read (hp : r.st.phase = .readTxn) (hi : issuedIn i .readTxn = true) (hok : r.ok = true) : WireEnd i r (respondOk r.rx r.st)

/-- The shape that most outcomes share: failure, or in its phase on with `k`, or elsewhere the return. -/
theorem WireEnd.of_continue {i : Instr} {r : TxnResult} {p : Phase} {k : State → State} (hi : i ≠ .readStatusRegister1)
    (hissue : ∀ q, issuedIn i q = (q == p)) (hk : r.st.phase = p → r.ok = true → WireEnd i r (k r.st)) :
    WireEnd i r (orBusFailure r (continueIn p k)) := by
  cases hok : r.ok with
  | false => rw [orBusFailure_of_failed _ hok]; exact .busFailure hok fun h => absurd h hi
  | true =>
    rw [orBusFailure_of_ok _ hok]
    by_cases hp : r.st.phase = p
    · rw [continueIn_here _ hp]; exact hk hp hok
    · rw [continueIn_elsewhere _ hp]; exact .returned hok (by simpa [hissue] using hp)

theorem WireEnd.of_mutated {i : Instr} {r : TxnResult} (hi : i ≠ .readStatusRegister1)
    (hissue : ∀ q, issuedIn i q = (q == .mutate)) : WireEnd i r (Machine.mutated r) :=
  .of_continue hi hissue fun hp hok => .mutated hp (by simp [hissue]) hok

theorem WireEnd.of_return {i : Instr} {r : TxnResult} (hi : i ≠ .readStatusRegister1) (hissue : ∀ q, issuedIn i q = false) :
    WireEnd i r (orBusFailure r id) := by
  cases hok : r.ok with
  | false => rw [orBusFailure_of_failed _ hok]; exact .busFailure hok fun h => absurd h hi
  | true => rw [orBusFailure_of_ok _ hok]; exact .returned hok (hissue _)

theorem WireEnd.of_identifyOutcome (r : TxnResult) : WireEnd .identification r (identifyOutcome r) := by
  unfold identifyOutcome
  cases hok : r.ok with
  | false => rw [orBusFailure_of_failed _ hok]; exact .busFailure hok (by simp)
  | true =>
    rw [orBusFailure_of_ok _ hok]
    split
    · next hrx =>
      by_cases hp : r.st.phase = .idTxn
      · rw [continueIn_here _ hp]; exact .identified rfl hp hok hrx
      · rw [continueIn_elsewhere _ hp]; exact .returned hok (by simpa [issuedIn] using hp)
    · next hrx => exact .idMismatch rfl hok hrx

theorem WireEnd.of_pollOutcome {r : TxnResult} (hp : r.st.phase = .poll) : WireEnd .readStatusRegister1 r (pollOutcome r) := by
  unfold pollOutcome
  cases hok : r.ok with
  | false =>
    cases hm : r.st.params.pollFailureMode <;> simp only [countPoll_params, hm, Bool.false_eq_true, if_false]
    · exact .pollHalts rfl hp hok hm
    · exact .pollFails rfl hp hok hm
  | true =>
    cases hb : busy (statusByte r.rx) with
    | false => exact .pollReady rfl hp hok hb
    | true =>
      cases hn : boundReached (countPoll r.st) <;> simp only [hn, Bool.false_eq_true, if_true, if_false]
      · exact .pollBusy rfl hp hok hb hn
      · exact .pollTimeout rfl hp hok hb hn

theorem WireEnd.of_gateOutcome {r : TxnResult} (hp : r.st.phase = .welchk) : WireEnd .readStatusRegister1 r (gateOutcome r) := by
  unfold gateOutcome
  cases hok : r.ok with
  | false => rw [orBusFailure_of_failed _ hok]; exact .busFailure hok (by simp [hp])
  | true =>
    rw [orBusFailure_of_ok _ hok]
    cases hw : wel (statusByte r.rx)
    · exact .gateClosed rfl hp hok hw
    · exact .gatePassed rfl hp hok hw

theorem WireEnd.of_statusOutcome (r : TxnResult) : WireEnd .readStatusRegister1 r (statusOutcome r.st r) := by
  unfold statusOutcome
  split
  · next hp => exact .of_pollOutcome hp
  · next hp => exact .of_gateOutcome hp
  · next hpoll hgate =>
    cases hok : r.ok with
    | false => rw [orBusFailure_of_failed _ hok]; exact .busFailure hok fun _ => hpoll
    | true => rw [orBusFailure_of_ok _ hok]; exact .returned hok (by simpa [issuedIn] using ⟨hpoll, hgate⟩)

/-- Every outcome of a wire command is one of those ends. -/
theorem WireEnd.of_wireOutcome {i : Instr} (hi : isWire i = true) (r : TxnResult) : WireEnd i r (wireOutcome i r) := by
  cases i
  case identification => exact .of_identifyOutcome r
  case readStatusRegister1 => exact .of_statusOutcome r
  case pageProgram | sectorErase | block32Erase | block64Erase | chipErase => exact .of_mutated (by simp) fun _ => rfl
  case readData | readStatusRegister2 => exact .of_return (by simp) fun _ => rfl
  case fastRead => exact .of_continue (by simp) (fun _ => rfl) fun hp hok => .read hp rfl hok
  case writeEnable => exact .of_continue (by simp) (fun _ => rfl) (.enabled rfl)
  case enableReset => exact .of_continue (by simp) (fun _ => rfl) (.resetEnabled rfl)
  case reset => exact .of_continue (by simp) (fun _ => rfl) (.chipReset rfl)
  case hostInit | hostRead | hostWrite | hostErase | hostChipErase => cases hi

/-- A step of a wire command is one of those ends, or the rejection of a PageProgram's payload (R245). -/
theorem WireEnd.of_exec {i : Instr} {s t : State} (hi : isWire i = true) (h : exec i s = .next t) :
    WireEnd i (transaction (segmentsOf s.params i) s) t ∨
      (∃ a d, i = .pageProgram a d ∧ payloadSizeOk s.params d = false) ∧ t = raise .badPayloadSize s := by
  by_cases hp : ∃ a d, i = .pageProgram a d ∧ payloadSizeOk s.params d = false
  · obtain ⟨a, d, rfl, hd⟩ := hp
    rw [exec_pageProgram_rejected hd] at h
    cases h
    exact .inr ⟨⟨a, d, rfl, hd⟩, rfl⟩
  · rw [exec_wire hi fun a d hpd => by simpa using fun hd => hp ⟨a, d, hpd, hd⟩] at h
    cases h
    exact .inl (.of_wireOutcome hi _)

/-- The command of a phase is one of the thirteen, and it is issued in that phase. -/
theorem issuedIn_of_phaseInstr {s : State} {i : Instr} (h : phaseInstr s = some i) :
    isWire i = true ∧ issuedIn i s.phase = true := by
  unfold phaseInstr at h
  split at h
  case h_7 hp =>
    unfold mutatingInstr at h
    rw [hp]
    split at h
    · cases h; exact ⟨rfl, rfl⟩
    · split at h
      · cases h; cases s.regs.unit <;> exact ⟨rfl, rfl⟩
      · split at h <;> cases h; exact ⟨rfl, rfl⟩
  case h_9 => cases h
  all_goals next hp => cases h; exact ⟨rfl, by rw [hp]; rfl⟩

end Sys2Proof.Machine
end

section
/-! SUPPORT. The ports: what the phases without a transaction, the host operations and the wire commands leave alone (R28 to R32). -/

namespace Sys2Proof.Machine

/-- t has the parameters, ports, flags and trace of s: at most phase, working registers and response registers differ. -/
structure SamePorts (s t : State) : Prop where
  params : t.params = s.params
  halted : t.halted = s.halted
  csN : t.csN = s.csN
  dataOut : t.dataOut = s.dataOut
  trace : t.trace = s.trace
  call : t.call = s.call
  env : t.env = s.env
  valid : t.resp.valid = s.resp.valid

theorem SamePorts.withRegs (r : Regs) (s : State) : SamePorts s { s with regs := r } := by constructor <;> rfl

theorem SamePorts.trans {s t u : State} (h : SamePorts s t) (h' : SamePorts t u) : SamePorts s u where
  params := h'.params.trans h.params
  halted := h'.halted.trans h.halted
  csN := h'.csN.trans h.csN
  dataOut := h'.dataOut.trans h.dataOut
  trace := h'.trace.trans h.trace
  call := h'.call.trans h.call
  env := h'.env.trans h.env
  valid := h'.valid.trans h.valid

theorem raise_samePorts (c : Cause) (s : State) : SamePorts s (raise c s) := by constructor <;> rfl

theorem respondOk_samePorts (d : List Byte) (s : State) : SamePorts s (respondOk d s) := by constructor <;> rfl

theorem chunkStep_samePorts (s : State) : SamePorts s (chunkStep s) := by constructor <;> rfl

theorem unitStep_samePorts (s : State) : SamePorts s (unitStep s) := by
  unfold unitStep
  split
  · constructor <;> rfl
  · exact raise_samePorts _ s

theorem loopTo_samePorts (p : Phase) (s : State) : SamePorts s (loopTo p s) := by
  unfold loopTo
  split
  · exact respondOk_samePorts _ s
  · constructor <;> rfl

theorem advanceStep_samePorts {s t : State} (h : advanceStep s = .next t) : SamePorts s t := by
  unfold advanceStep at h
  split at h
  · cases h; exact (SamePorts.withRegs _ s).trans (loopTo_samePorts _ _)
  · split at h
    · cases h; exact (SamePorts.withRegs _ s).trans (loopTo_samePorts _ _)
    · split at h <;> cases h
      exact respondOk_samePorts _ s

/-- A host operation only latches, checks and goes on: no bus activity and no event (R25, R312). -/
theorem exec_host_samePorts {i : Instr} {s t : State} (hi : isWire i = false) (h : exec i s = .next t) : SamePorts s t := by
  cases i
  case hostInit | hostChipErase => cases h; constructor <;> rfl
  case hostRead a l =>
    simp only [exec, execHostRead] at h
    split at h <;> cases h
    split <;> constructor <;> rfl
  case hostWrite a d =>
    simp only [exec, execHostWrite] at h
    split at h <;> cases h
    split <;> constructor <;> rfl
  case hostErase a l =>
    simp only [exec, execHostErase] at h
    split at h <;> cases h
    split
    · split <;> constructor <;> rfl
    · constructor <;> rfl
  all_goals cases hi

/-! What a request decodes to (R100 to R103). -/

/-- The five operations that a header can give (R102). -/
theorem decodeHeader_ok {op : Byte} {a l : Word} {d : List Byte} {i : Instr} (h : decodeHeader op a l d = .ok i) :
    (op = HostOp.init ∧ i = .hostInit) ∨ (op = HostOp.read ∧ i = .hostRead a l) ∨ (op = HostOp.write ∧ i = .hostWrite a d) ∨
      (op = HostOp.erase ∧ i = .hostErase a l) ∨ (op = HostOp.chipErase ∧ i = .hostChipErase) := by
  unfold decodeHeader at h
  split_ifs at h with h1 h2 h3 h4 h5 <;> cases h
  · exact .inl ⟨h1, rfl⟩
  · exact .inr (.inl ⟨h2, rfl⟩)
  · exact .inr (.inr (.inl ⟨h3, rfl⟩))
  · exact .inr (.inr (.inr (.inl ⟨h4, rfl⟩)))
  · exact .inr (.inr (.inr (.inr ⟨h5, rfl⟩)))

/-- The operation of a request is that of its header. -/
theorem decodeRequest_ok {bytes rest : List Byte} {i : Instr} (h : decodeRequest bytes = .ok (i, rest)) :
    ∃ op a l d, decodeHeader op a l d = .ok i := by
  unfold decodeRequest at h
  split at h
  · simp only at h
    split at h
    · cases h
    · split at h <;> cases h
      next hd => exact ⟨_, _, _, _, hd⟩
  · cases h

theorem isWire_of_decode_request {p : Params} {bytes : List Byte} {i : Instr} (h : decode p (.request bytes) = .ok i) :
    isWire i = false := by
  simp only [decode] at h
  split at h <;> cases h
  next hr =>
    obtain ⟨op, a, l, d, hd⟩ := decodeRequest_ok hr
    obtain ⟨-, rfl⟩ | ⟨-, rfl⟩ | ⟨-, rfl⟩ | ⟨-, rfl⟩ | ⟨-, rfl⟩ := decodeHeader_ok hd <;> rfl

/-! The command of MUT (R25). -/

theorem phaseInstr_mutate {s : State} (hp : s.phase = .mutate) : phaseInstr s = mutatingInstr s.params s.regs := by
  rw [phaseInstr, hp]

section
variable {p : Params} {r : Regs}

theorem mutatingInstr_write (h : r.op = HostOp.write) : mutatingInstr p r = some (.pageProgram (wireAddr p r.cur) (payload r)) := by
  rw [mutatingInstr, if_pos h]

theorem mutatingInstr_erase (h : r.op = HostOp.erase) : mutatingInstr p r = some (eraseInstr r.unit (wireAddr p r.cur)) := by
  rw [mutatingInstr, h, if_neg (by decide), if_pos rfl]

theorem mutatingInstr_chipErase (h : r.op = HostOp.chipErase) : mutatingInstr p r = some .chipErase := by
  rw [mutatingInstr, h, if_neg (by decide), if_neg (by decide), if_pos rfl]

end

/-! The wire commands. -/

section
variable {i : Instr} {r : TxnResult} {t : State}

/-- After its transaction a wire command leaves the ports and the trace alone, but that a failed poll may halt (R207). -/
theorem WireEnd.samePorts (h : WireEnd i r t) : SamePorts r.st t ∨
    i = .readStatusRegister1 ∧ r.st.phase = .poll ∧ r.ok = false ∧ r.st.params.pollFailureMode = .halt ∧
      t = halt (countPoll r.st) := by
  cases h
  case pollHalts hi hp hok hm => exact .inr ⟨hi, hp, hok, hm, rfl⟩
  all_goals exact .inl (by constructor <;> rfl)

/-- A wire command changes at most the poll count, in POLL, and enters the busy wait from ID_TXN. -/
theorem WireEnd.regs (h : WireEnd i r t) : t.regs = r.st.regs ∨
    i = .readStatusRegister1 ∧ r.st.phase = .poll ∧ t.regs = { r.st.regs with polls := r.st.regs.polls + 1 } ∨
    i = .identification ∧ r.st.phase = .idTxn ∧ t.regs = { r.st.regs with polls := 0, cont := .rsten } := by
  cases h
  case pollHalts hi hp _ _ => exact .inr (.inl ⟨hi, hp, rfl⟩)
  case pollFails hi hp _ _ => exact .inr (.inl ⟨hi, hp, rfl⟩)
  case pollReady hi hp _ _ => exact .inr (.inl ⟨hi, hp, rfl⟩)
  case pollTimeout hi hp _ _ _ => exact .inr (.inl ⟨hi, hp, rfl⟩)
  case pollBusy hi hp _ _ _ => exact .inr (.inl ⟨hi, hp, rfl⟩)
  case identified hi hp _ _ => exact .inr (.inr ⟨hi, hp, rfl⟩)
  all_goals exact .inl rfl

/-- A wire command sets the response registers only on its way to RESP. -/
theorem WireEnd.resp (h : WireEnd i r t) : t.resp = r.st.resp ∨ t.phase = .resp := by
  cases h
  case returned | identified | pollHalts | pollReady | pollBusy | gatePassed | enabled | resetEnabled | mutated => exact .inl rfl
  all_goals exact .inr rfl

end

/-- t has the parameters of s, and its trace with no event more, one, or a transaction and the `Halt` after it. -/
structure GrowsFrom (s t : State) : Prop where
  params : t.params = s.params
  trace : t.trace = s.trace ∨ (∃ e, t.trace = s.trace ++ [e]) ∨ ∃ gs, t.trace = s.trace ++ [.txn gs, .halt]

theorem SamePorts.growsFrom {s t : State} (h : SamePorts s t) : GrowsFrom s t := ⟨h.params, .inl h.trace⟩

/-- A wire command adds its one transaction, and the `Halt` if the poll halts; a rejected payload adds nothing (R245). -/
theorem exec_wire_growsFrom {i : Instr} {s t : State} (hi : isWire i = true) (h : exec i s = .next t) : GrowsFrom s t := by
  obtain hend | ⟨-, rfl⟩ := WireEnd.of_exec hi h
  · obtain hsame | ⟨-, -, -, -, rfl⟩ := hend.samePorts
    · exact ⟨hsame.params, .inr (.inl ⟨_, hsame.trace⟩)⟩
    · exact ⟨rfl, .inr (.inr ⟨_, List.append_assoc ..⟩)⟩
  · exact (raise_samePorts _ s).growsFrom

theorem exec_growsFrom {i : Instr} {s t : State} (h : exec i s = .next t) : GrowsFrom s t := by
  cases hi : isWire i with
  | true => exact exec_wire_growsFrom hi h
  | false => exact (exec_host_samePorts hi h).growsFrom

/-- Without engine reset a step keeps the parameters and adds to the trace at its end only. -/
theorem PhaseStep.growsFrom {s t : State} (h : PhaseStep s t) : GrowsFrom s t := by
  cases h with
  | call _ _ _ he =>
    obtain ⟨hparams, htrace⟩ := exec_growsFrom he
    exact ⟨hparams, htrace⟩
  | dispatch _ _ he | issue _ he => exact exec_growsFrom he
  | wait => exact ⟨rfl, .inl rfl⟩
  | accept | sleep | respond => exact ⟨rfl, .inr (.inl ⟨_, rfl⟩)⟩
  | reserved => exact (raise_samePorts _ s).growsFrom
  | chunk => exact (chunkStep_samePorts s).growsFrom
  | unit => exact (unitStep_samePorts s).growsFrom
  | advance _ ha => exact (advanceStep_samePorts ha).growsFrom

/-- CHECK, CHUNK, UNIT and ADVANCE have no bus activity and no event (R25). -/
theorem PhaseStep.samePorts {s t : State} (h : PhaseStep s t)
    (hp : s.phase = .check ∨ s.phase = .chunk ∨ s.phase = .unit ∨ s.phase = .advance) : SamePorts s t := by
  cases h with
  | dispatch _ hd he => exact exec_host_samePorts (isWire_of_decode_request hd) he
  | reserved => exact raise_samePorts _ s
  | chunk => exact chunkStep_samePorts s
  | unit => exact unitStep_samePorts s
  | advance _ ha => exact advanceStep_samePorts ha
  | issue hi => have := issues_of_phaseInstr hi; obtain h | h | h | h := hp <;> simp [h, Phase.issues] at this
  | call hq | wait hq | accept hq | sleep hq | respond hq => simp [hq] at hp

end Sys2Proof.Machine
end

section
open Sys2Proof Sys2Proof.Machine

/-- Settles O31: a wire command is one transaction and one of the ends of `WireEnd`, each of which keeps the ports. -/
theorem wireCommandFrame : Obligations.WireCommandFrame := by
  intro s i hi hp gs
  refine ⟨_, exec_wire hi hp, ?_⟩
  generalize hr : transaction (segmentsOf s.params i) s = r
  have hend := WireEnd.of_wireOutcome hi r
  generalize wireOutcome i r = t at hend ⊢
  have hregs := hend.regs
  have hresp := hend.resp
  have hports := hend.samePorts
  subst hr
  obtain hsame | ⟨rfl, hpoll, hok, hmode, rfl⟩ := hports
  · exact ⟨hsame.params, hsame.call, hsame.csN, hsame.valid, hsame.dataOut, hsame.env, .inl ⟨hsame.trace, hsame.halted⟩,
      hregs, hresp⟩
  · have hfail : ¬ answersOk s.env 2 := fun h => by
      rw [transaction_ok, (runSegs_all_ok_iff _ _).mpr h] at hok; cases hok
    exact ⟨rfl, rfl, rfl, rfl, rfl, rfl, .inr ⟨rfl, hpoll, hfail, hmode, rfl, rfl, List.append_assoc ..⟩, hregs, hresp⟩

/-- Settles O43, from the frames of the instructions and of the phases that run none. -/
theorem traceGrowsAtItsEnd : Obligations.TraceGrowsAtItsEnd := by
  intro s t hr h
  have hstep := PhaseStep.of_step hr h
  exact ⟨hstep.growsFrom.trace, fun hp => ⟨(hstep.samePorts hp).trace, (hstep.samePorts hp).env⟩⟩

/-- Settles O44: engine reset keeps the parameters, and so does every row of R25. -/
theorem parametersNeverChange : Obligations.ParametersNeverChange := by
  intro s t h
  cases hr : s.env.resetIn with
  | true => rw [step_resetIn hr] at h; cases h; rfl
  | false => exact (PhaseStep.of_step hr h).growsFrom.params

/-- Settles O10: the reset state is the one written out. -/
theorem resetAsStated : Obligations.ResetAsStated := by
  unfold Obligations.ResetAsStated
  decide

/-- Settles O16: `idleStep` with an empty port gives the state back. -/
theorem idleEngineWaits : Obligations.IdleEngineWaits := by
  intro s hr hp hc hq
  rw [step_idle hr hp hc, idleStep, hq]

/-- Settles O45: each invariant evaluates to true on the reset state; the plans speak of WRITE and ERASE only. -/
theorem resetHasTheInvariants : Obligations.ResetHasTheInvariants := by
  refine ⟨by constructor <;> decide, by decide, by decide, by decide, by decide, ?_, ?_, by decide⟩
  · intro hop; exact absurd hop (by decide)
  · intro hop; exact absurd hop (by decide)

/-- Settles O12: `fetch` hands `step` the decoded instruction; the operands are those of `phaseInstr`. -/
theorem stepRunsTheDecodedInstruction : Obligations.StepRunsTheDecodedInstruction := by
  refine ⟨fun s i hr hp hd => step_check hr hp hd, fun s hr => ?_, fun s i hr hi => step_issue hr hi,
    fun s w i hr hp hc hd => step_call hr hp hc hd⟩
  have issued : ∀ {i}, phaseInstr s = some i → step s = exec i s := step_issue hr
  refine ⟨?_, ?_, ?_, ?_, ?_, ?_, ?write, ?erase, ?chip, ?read⟩
  case write => intro hp hop; exact issued ((phaseInstr_mutate hp).trans (mutatingInstr_write hop))
  case erase =>
    intro hp hop
    rw [issued ((phaseInstr_mutate hp).trans (mutatingInstr_erase hop))]
    cases s.regs.unit <;> rfl
  case chip => intro hp hop; exact issued ((phaseInstr_mutate hp).trans (mutatingInstr_chipErase hop))
  case read => intro hp; exact issued (by rw [phaseInstr, hp]; rfl)
  all_goals intro hp; exact issued (by rw [phaseInstr, hp])

end

section
/-! SUPPORT. The invariant of the sequencer in three parts: the ports, the registers of the phase, and the response. A phase that goes
on keeps the ports and the response, so that only the registers are left to show. -/

namespace Sys2Proof.Machine

/-- The part of the invariant that speaks of ports and parameters, in a phase other than HALTED (R30, R31, R152, logs 3, 13, 18). -/
structure PortsInv (s : State) : Prop where
  csHigh : s.csN = true
  respQuiet : s.resp.valid = false
  notHalted : s.halted = false
  noCall : s.call = none
  paramsOk : s.params.wf = true

/-- The part of the invariant that speaks of the phase and the working registers (R23, R25). -/
structure SeqInv (s : State) : Prop where
  opPhase : opFitsPhase s = true
  latched : requestLatched s = true
  writeLoop : writeLoopOk s = true
  eraseLoop : eraseLoopOk s = true
  readRange : readReady s = true
  pollBound : pollsBounded s = true

section
variable {s t : State}

theorem PortsInv.of_same (h : PortsInv s) (hst : SamePorts s t) : PortsInv t where
  csHigh := hst.csN.trans h.csHigh
  respQuiet := hst.valid.trans h.respQuiet
  notHalted := hst.halted.trans h.notHalted
  noCall := hst.call.trans h.noCall
  paramsOk := hst.params ▸ h.paramsOk

theorem EngineInv.portsInv (h : EngineInv s) (hp : s.phase ≠ .halted) : PortsInv s where
  csHigh := h.csHigh
  respQuiet := h.respQuiet
  notHalted := h.haltedPhase.trans (beq_eq_false_iff_ne.mpr hp)
  noCall := h.noCall
  paramsOk := h.paramsOk

theorem EngineInv.seqInv (h : EngineInv s) : SeqInv s :=
  ⟨h.opPhase, h.latched, h.writeLoop, h.eraseLoop, h.readRange, h.pollBound⟩

theorem EngineInv.of_parts (hports : PortsInv s) (hp : s.phase ≠ .halted) (hseq : SeqInv s) (hresp : respWellFormed s = true) :
    EngineInv s where
  csHigh := hports.csHigh
  respQuiet := hports.respQuiet
  haltedPhase := hports.notHalted.trans (beq_eq_false_iff_ne.mpr hp).symm
  noCall := hports.noCall
  paramsOk := hports.paramsOk
  opPhase := hseq.opPhase
  latched := hseq.latched
  writeLoop := hseq.writeLoop
  eraseLoop := hseq.eraseLoop
  readRange := hseq.readRange
  pollBound := hseq.pollBound
  response := hresp

theorem ne_resp_of_inRequest (h : inRequest s.phase = true) : s.phase ≠ .resp := by rintro hp; rw [hp] at h; cases h

theorem ne_halted_of_inRequest (h : inRequest s.phase = true) : s.phase ≠ .halted := by rintro hp; rw [hp] at h; cases h

/-- Outside RESP no read data is kept (R34). -/
theorem EngineInv.data_nil (h : EngineInv s) (hp : s.phase ≠ .resp) : s.resp.data = [] := by
  obtain hd | ⟨hresp, -⟩ := ((respWellFormed_iff s).mp h.response).2.2
  · exact hd
  · exact absurd hresp hp

/-- Response registers without data fit every phase. -/
theorem EngineInv.response_of_eq (h : EngineInv s) (hp : s.phase ≠ .resp) (hresp : t.resp = s.resp) : respWellFormed t = true := by
  obtain ⟨hok, herr, -⟩ := (respWellFormed_iff s).mp h.response
  rw [respWellFormed_iff, hresp]
  exact ⟨hok, herr, .inl (h.data_nil hp)⟩

/-- A phase of a request that goes on, its ports and response registers untouched. -/
theorem EngineInv.goesOn (h : EngineInv s) (hs : inRequest s.phase = true) (hst : SamePorts s t) (hresp : t.resp = s.resp)
    (ht : t.phase ≠ .halted) (hseq : SeqInv t) : EngineInv t :=
  .of_parts ((h.portsInv (ne_halted_of_inRequest hs)).of_same hst) ht hseq (h.response_of_eq (ne_resp_of_inRequest hs) hresp)

/-! The parts that a phase leaves empty. -/

theorem writeLoopOk_of_op (h : s.regs.op ≠ HostOp.write) : writeLoopOk s = true :=
  (writeLoopOk_iff s).mpr fun _ hop => absurd hop h

theorem eraseLoopOk_of_op (h : s.regs.op ≠ HostOp.erase) : eraseLoopOk s = true :=
  (eraseLoopOk_iff s).mpr fun _ hop => absurd hop h

theorem readReady_of_phase (h : s.phase ≠ .readTxn) : readReady s = true := (readReady_iff s).mpr fun hp => absurd hp h

theorem pollsBounded_of_phase (hp : s.phase ≠ .poll) (hs : s.phase ≠ .sleep) : pollsBounded s = true :=
  (pollsBounded_iff s).mpr fun _ _ h => (h.elim hp hs).elim

/-- A busy wait starts below its bound, which is at least 1 (R12, R205). -/
theorem pollsBounded_of_zero (hw : s.params.wf = true) (h0 : s.regs.polls = 0) : pollsBounded s = true := by
  rw [pollsBounded_iff, h0]
  rintro n hn -
  refine Nat.pos_of_ne_zero ?_
  rintro rfl
  exact ((Params.wf_iff _).mp hw).2.2.2 hn

theorem inRequest_of_inLoop (h : inLoop s = true) : inRequest s.phase = true := by
  cases hp : s.phase <;> simp [inLoop, inRequest, hp] at h ⊢

/-- Between two requests the registers carry no meaning (R137). -/
theorem SeqInv.of_not_inRequest (h : inRequest s.phase = false) : SeqInv s where
  opPhase := by cases hp : s.phase <;> simp [hp, inRequest] at h <;> simp [opFitsPhase, hp]
  latched := (requestLatched_iff s).mpr fun hs => absurd hs (by simp [h])
  writeLoop := (writeLoopOk_iff s).mpr fun hl => absurd (inRequest_of_inLoop hl) (by simp [h])
  eraseLoop := (eraseLoopOk_iff s).mpr fun hl => absurd (inRequest_of_inLoop hl) (by simp [h])
  readRange := readReady_of_phase fun hp => by rw [hp] at h; cases h
  pollBound := pollsBounded_of_phase (fun hp => by rw [hp] at h; cases h) (fun hp => by rw [hp] at h; cases h)

/-! The ends of an operation (R135, R207, R308). -/

theorem engineInv_raise {c : Cause} (h : PortsInv s) (hc : c ≠ .none) : EngineInv (raise c s) :=
  .of_parts (h.of_same (raise_samePorts c s)) nofun (.of_not_inRequest rfl) (by simp [respWellFormed_iff, hc])

theorem engineInv_respondOk {d : List Byte} (h : PortsInv s) (hd : d = [] ∨ s.regs.op = HostOp.read) :
    EngineInv (respondOk d s) :=
  .of_parts (h.of_same (respondOk_samePorts d s)) nofun (.of_not_inRequest rfl) (by simpa [respWellFormed_iff] using hd)

theorem engineInv_halt (h : PortsInv s) (hresp : respWellFormed (halt s) = true) : EngineInv (halt s) :=
  have hseq : SeqInv (halt s) := .of_not_inRequest rfl
  { hseq with
    csHigh := h.csHigh, respQuiet := h.respQuiet, haltedPhase := rfl, noCall := h.noCall, paramsOk := h.paramsOk
    response := hresp }

/-- The window of a transaction touches nothing that the invariant speaks of but chip-select, which it leaves high (R152). -/
theorem EngineInv.transaction (h : EngineInv s) (qs : List SegReq) : EngineInv (transaction qs s).st :=
  { h with csHigh := rfl }

theorem EngineInv.counted (h : EngineInv s) (hs : inRequest s.phase = true) : PortsInv (countPoll s) :=
  (h.portsInv (ne_halted_of_inRequest hs)).of_same (by constructor <;> rfl)

end

end Sys2Proof.Machine
end

section
/-! SUPPORT. The registers of each phase (R23, R25, R243, R264): the latched request is kept, the loops of WRITE and ERASE keep their
sums, and every row of R25 keeps the invariant. -/

namespace Sys2Proof.Machine

section
variable {s t : State}

/-! The latched request (R130, R137). -/

/-- t has the latched fields of s, under the same parameters. -/
structure SameRequest (s t : State) : Prop where
  params : t.params = s.params
  op : t.regs.op = s.regs.op
  reqAddr : t.regs.reqAddr = s.regs.reqAddr
  reqLen : t.regs.reqLen = s.regs.reqLen
  wbuf : t.regs.wbuf = s.regs.wbuf

theorem requestLatched_of_same (h : requestLatched s = true) (hs : inRequest s.phase = true) (hst : SameRequest s t) :
    requestLatched t = true := by
  rw [requestLatched_iff, hst.params, hst.op, hst.reqAddr, hst.reqLen, hst.wbuf]
  exact fun _ => (requestLatched_iff s).mp h hs

/-! INIT has no loop and no range (R225). -/

theorem SeqInv.of_init (hop : t.regs.op = HostOp.init) (hl : requestLatched t = true) (hfit : opFitsPhase t = true)
    (hb : pollsBounded t = true) : SeqInv t where
  opPhase := hfit
  latched := hl
  writeLoop := writeLoopOk_of_op (by simp [hop, HostOp.init, HostOp.write])
  eraseLoop := eraseLoopOk_of_op (by simp [hop, HostOp.init, HostOp.erase])
  readRange := readReady_of_phase fun hp => by simp [opFitsPhase, hp, hop, HostOp.init, HostOp.read] at hfit
  pollBound := hb

/-! The handshake of a loop, from the busy wait to ADVANCE (R25). -/

/-- In the chunk or unit loop, past CHUNK and UNIT: the phases between which the loop's registers stand still. -/
def midLoop (s : State) : Bool := inLoop s && s.phase != .chunk && s.phase != .unit

theorem midLoop_iff (s : State) : midLoop s = true ↔ inLoop s = true ∧ s.phase ≠ .chunk ∧ s.phase ≠ .unit := by
  simp [midLoop, and_assoc]

theorem inRequest_of_midLoop (h : midLoop s = true) : inRequest s.phase = true := inRequest_of_inLoop ((midLoop_iff s).mp h).1

theorem opFitsPhase_of_midLoop (h : midLoop s = true) : opFitsPhase s = mutatingOp s.regs.op := by
  cases hp : s.phase <;> simp [midLoop, inLoop, hp] at h <;> simp [opFitsPhase, hp, h]

theorem ne_readTxn_of_midLoop (h : midLoop s = true) : s.phase ≠ .readTxn := by
  rintro hp
  simp [midLoop, inLoop, hp] at h

/-- Inside the handshake of a loop only the poll count moves. -/
theorem SeqInv.midLoop_move (h : SeqInv s) (hs : midLoop s = true) (ht : midLoop t = true) (hp : t.params = s.params)
    (hr : t.regs = { s.regs with polls := t.regs.polls }) (hb : pollsBounded t = true) : SeqInv t := by
  have hop : t.regs.op = s.regs.op := by rw [hr]
  obtain ⟨hloop, hchunk, hunit⟩ := (midLoop_iff s).mp hs
  refine ⟨?_, ?_, ?_, ?_, readReady_of_phase (ne_readTxn_of_midLoop ht), hb⟩
  · rw [opFitsPhase_of_midLoop ht, hop, ← opFitsPhase_of_midLoop hs]
    exact h.opPhase
  · exact requestLatched_of_same h.latched (inRequest_of_midLoop hs) ⟨hp, hop, by rw [hr], by rw [hr], by rw [hr]⟩
  · rw [writeLoopOk_iff, hr, hp]
    intro _ hw
    obtain ⟨hrem, hsum, hcur, hsize⟩ := (writeLoopOk_iff s).mp h.writeLoop hloop hw
    exact ⟨hrem, hsum, hcur, .inr (hsize.resolve_left hchunk)⟩
  · rw [eraseLoopOk_iff, hr, hp]
    intro _ he
    obtain ⟨hrem, hle, hal, hcur, hsel⟩ := (eraseLoopOk_iff s).mp h.eraseLoop hloop he
    exact ⟨hrem, hle, hal, hcur, .inr (hsel.resolve_left hunit)⟩

end

/-! The wire commands. -/

/-- POLL and SLEEP belong to a loop or to INIT, as `cont` says (R23). -/
theorem midLoop_or_init {s : State} (h : EngineInv s) (hp : s.phase = .poll ∨ s.phase = .sleep) :
    (s.regs.cont = .wren ∧ midLoop s = true) ∨ (s.regs.cont = .rsten ∧ s.regs.op = HostOp.init) := by
  have hfit := h.opPhase
  cases hc : s.regs.cont <;> obtain hp | hp := hp <;> simp_all [midLoop, inLoop, opFitsPhase]

section
variable {u t : State} {i : Instr} {r : TxnResult}

/-- One more poll below the bound leaves the count below it (R205, R321). -/
theorem pollsBounded_counted (h : EngineInv u) (hp : u.phase = .poll) (hn : boundReached (countPoll u) = false) :
    pollsBounded (setPhase .sleep (countPoll u)) = true := by
  rw [pollsBounded_iff]
  intro n hmax _
  have hlt := (pollsBounded_iff u).mp h.pollBound n hmax (.inl hp)
  have hne : n ≠ u.regs.polls + 1 := by
    simpa [boundReached, show u.params.maxPolls = some n from hmax] using hn
  simp only [setPhase_regs, countPoll_regs]
  omega

/-- A poll that goes on, to `cont` or to SLEEP. -/
theorem engineInv_pollGoesOn {p : Phase} (h : EngineInv u) (hp : u.phase = .poll) (hnext : p = .sleep ∨ p = contPhase u.regs.cont)
    (hb : pollsBounded (setPhase p (countPoll u)) = true) : EngineInv (setPhase p (countPoll u)) := by
  have hin : inRequest u.phase = true := by rw [hp]; rfl
  refine h.goesOn hin (by constructor <;> rfl) rfl (by obtain rfl | rfl := hnext <;> cases u.regs.cont <;> nofun) ?_
  obtain ⟨hc, hmid⟩ | ⟨hc, hop⟩ := midLoop_or_init h (.inl hp)
  · refine h.seqInv.midLoop_move hmid ?_ rfl rfl hb
    obtain rfl | rfl := hnext <;> simp [midLoop, inLoop, hc, contPhase]
  · refine .of_init hop (requestLatched_of_same h.latched hin (by constructor <;> rfl)) ?_ hb
    obtain rfl | rfl := hnext <;> simp [opFitsPhase, hc, hop, contPhase]

/-- A phase of the handshake that goes on with no register changed. -/
theorem engineInv_handshake {p : Phase} (h : EngineInv u) (hs : midLoop u = true) (ht : midLoop (setPhase p u) = true)
    (hp : p ≠ .poll ∧ p ≠ .sleep) : EngineInv (setPhase p u) :=
  have hin := inRequest_of_midLoop ht
  h.goesOn (inRequest_of_midLoop hs) (by constructor <;> rfl) rfl (ne_halted_of_inRequest hin)
    (h.seqInv.midLoop_move hs ht rfl rfl (pollsBounded_of_phase hp.1 hp.2))

/-- A wire command issued in its phase keeps the invariant. -/
theorem WireEnd.engineInv (hend : WireEnd i r t) (h : EngineInv r.st) (hissued : issuedIn i r.st.phase = true)
    (hin : inRequest r.st.phase = true) : EngineInv t := by
  have hports := h.portsInv (ne_halted_of_inRequest hin)
  have hfit := h.opPhase
  cases hend with
  | busFailure | idMismatch | gateClosed => exact engineInv_raise hports (by simp)
  | returned _ hp => rw [hp] at hissued; cases hissued
  | identified _ hp =>
    have hop : r.st.regs.op = HostOp.init := by simpa [opFitsPhase, hp] using hfit
    exact h.goesOn hin (by constructor <;> rfl) rfl nofun (.of_init hop
      (requestLatched_of_same h.latched hin (by constructor <;> rfl)) (by simpa [opFitsPhase] using hop)
      (pollsBounded_of_zero h.paramsOk rfl))
  | pollHalts _ hp => exact engineInv_halt (h.counted hin) (h.response_of_eq (by simp [hp]) rfl)
  | pollFails | pollTimeout => exact engineInv_raise (h.counted hin) (by simp)
  | pollReady _ hp =>
    refine engineInv_pollGoesOn h hp (.inr rfl) (pollsBounded_of_phase ?_ ?_) <;>
      cases r.st.regs.cont <;> simp [contPhase]
  | pollBusy _ hp _ _ hn => exact engineInv_pollGoesOn h hp (.inl rfl) (pollsBounded_counted h hp hn)
  | gatePassed _ hp | enabled _ hp | mutated hp =>
    exact engineInv_handshake h (by simp [midLoop, inLoop, hp]) rfl (by simp)
  | resetEnabled _ hp =>
    have hop : r.st.regs.op = HostOp.init := by simpa [opFitsPhase, hp] using hfit
    exact h.goesOn hin (by constructor <;> rfl) rfl nofun (.of_init hop
      (requestLatched_of_same h.latched hin (by constructor <;> rfl)) (by simpa [opFitsPhase] using hop)
      (pollsBounded_of_phase nofun nofun))
  | chipReset => exact engineInv_respondOk hports (.inl rfl)
  | read hp => exact engineInv_respondOk hports (.inr (by simpa [opFitsPhase, hp] using hfit))

end

/-- A phase's command keeps the invariant. -/
theorem EngineInv.issue {s t : State} {i : Instr} (h : EngineInv s) (hi : phaseInstr s = some i) (he : exec i s = .next t) :
    EngineInv t := by
  obtain ⟨hwire, hissued⟩ := issuedIn_of_phaseInstr hi
  have hin : inRequest s.phase = true := by
    have := issues_of_phaseInstr hi
    cases hp : s.phase <;> simp [hp, Phase.issues, inRequest] at this ⊢
  obtain hend | ⟨-, rfl⟩ := WireEnd.of_exec hwire he
  · exact hend.engineInv (h.transaction _) hissued hin
  · exact engineInv_raise (h.portsInv (ne_halted_of_inRequest hin)) (by simp)

end Sys2Proof.Machine
end

section
/-! SUPPORT. The phases without a transaction keep the invariant: CHECK, CHUNK, UNIT, ADVANCE and the ports' own steps (R25). -/

namespace Sys2Proof.Machine

/-! What CHECK decodes (R101, R133). -/

/-- Registers that the port latched are read back as they stand. -/
theorem decode_latchedWords {p : Params} {r : Regs} (hw : r.op = HostOp.write → r.wbuf.length = r.reqLen.toNat)
    (hn : r.op ≠ HostOp.write → r.wbuf = []) :
    decode p (latchedWords r) = decodeHeader r.op r.reqAddr r.reqLen r.wbuf := by
  by_cases hop : r.op = HostOp.write
  · rw [latchedWords, hop, decode_write_request p _ _ (hw hop)]
    rfl
  · rw [latchedWords, hn hop, List.append_nil, decode_header_only p hop]

/-! The host operations on the request that is latched: latching it again changes nothing. -/

section
variable {s t : State}

theorem latchOp_self {op : Byte} (h : s.regs.op = op) : latchOp op s = s := by subst h; rfl

theorem latch_self {op : Byte} {d : List Byte} (h : s.regs.op = op) (hd : s.regs.wbuf = d) :
    latch op s.regs.reqAddr s.regs.reqLen d s = s := by subst h hd; rfl

theorem exec_hostInit_latched (hop : s.regs.op = HostOp.init) : exec .hostInit s = .next (setPhase .idTxn s) := by
  simp only [exec, execHostInit, latchOp_self hop]

theorem exec_hostChipErase_latched (hop : s.regs.op = HostOp.chipErase) :
    exec .hostChipErase s = .next (startPoll .wren s) := by
  simp only [exec, execHostChipErase, latchOp_self hop]

theorem exec_hostRead_latched (hop : s.regs.op = HostOp.read) (hd : s.regs.wbuf = [])
    (hduty : dutyOk s.params s.regs.reqAddr s.regs.reqLen.toNat = true) :
    exec (.hostRead s.regs.reqAddr s.regs.reqLen) s = .next (if s.regs.reqLen = 0 then raise .emptyBuffer s
      else setPhase .readTxn (loadRange s.regs.reqAddr s.regs.reqLen s)) := by
  simp only [exec, execHostRead, hduty, if_true, latch_self hop hd]

theorem exec_hostErase_latched (hop : s.regs.op = HostOp.erase) (hd : s.regs.wbuf = [])
    (hduty : dutyOk s.params s.regs.reqAddr s.regs.reqLen.toNat = true) :
    exec (.hostErase s.regs.reqAddr s.regs.reqLen) s = .next (
      if eraseAligned s.params s.regs.reqAddr s.regs.reqLen then
        if s.regs.reqLen = 0 then respondOk [] (loadRange s.regs.reqAddr s.regs.reqLen s)
        else setPhase .unit (loadRange s.regs.reqAddr s.regs.reqLen s)
      else raise .misaligned s) := by
  simp only [exec, execHostErase, hduty, if_true, latch_self hop hd]

theorem exec_hostWrite_latched (hop : s.regs.op = HostOp.write) (hd : s.regs.wbuf.length = s.regs.reqLen.toNat)
    (hduty : dutyOk s.params s.regs.reqAddr s.regs.reqLen.toNat = true) :
    exec (.hostWrite s.regs.reqAddr s.regs.wbuf) s = .next (
      if s.regs.wbuf = [] then respondOk [] (clearIdx (loadRange s.regs.reqAddr s.regs.reqLen s))
      else setPhase .chunk (clearIdx (loadRange s.regs.reqAddr s.regs.reqLen s))) := by
  simp only [exec, execHostWrite, hd, hduty, if_true, BitVec.ofNat_toNat, BitVec.setWidth_eq, latch_self hop rfl]

/-- What a latched request of the three bound operations has been checked for (R139). -/
theorem dutyOk_of_latched (h : requestLatched s = true) (hs : inRequest s.phase = true)
    (hop : s.regs.op = HostOp.read ∨ s.regs.op = HostOp.write ∨ s.regs.op = HostOp.erase) :
    dutyOk s.params s.regs.reqAddr s.regs.reqLen.toNat = true := by
  obtain ⟨-, -, hduty⟩ := (requestLatched_iff s).mp h hs
  exact (dutyOk_iff ..).mpr ((requestDutyOk_iff ..).mp hduty hop)

/-! CHECK of a latched request keeps the invariant, one operation at a time (R25). -/

theorem inRequest_of_check (hp : s.phase = .check) : inRequest s.phase = true := by rw [hp]; rfl

theorem EngineInv.dispatchInit (h : EngineInv s) (hp : s.phase = .check) (hop : s.regs.op = HostOp.init) :
    EngineInv (setPhase .idTxn s) := by
  have hin := inRequest_of_check hp
  exact h.goesOn hin (by constructor <;> rfl) rfl nofun (.of_init hop
    (requestLatched_of_same h.latched hin (by constructor <;> rfl)) (by simpa [opFitsPhase] using hop)
    (pollsBounded_of_phase nofun nofun))

theorem EngineInv.dispatchChipErase (h : EngineInv s) (hp : s.phase = .check) (hop : s.regs.op = HostOp.chipErase) :
    EngineInv (startPoll .wren s) := by
  have hin := inRequest_of_check hp
  exact h.goesOn hin (by constructor <;> rfl) rfl nofun ⟨by simp [opFitsPhase, hop, mutatingOp],
    requestLatched_of_same h.latched hin (by constructor <;> rfl),
    writeLoopOk_of_op (by simp [hop, HostOp.write, HostOp.chipErase]),
    eraseLoopOk_of_op (by simp [hop, HostOp.erase, HostOp.chipErase]), rfl, pollsBounded_of_zero h.paramsOk rfl⟩

/-- READ of a range that is not empty has the whole range left (R280). -/
theorem EngineInv.dispatchRead (h : EngineInv s) (hp : s.phase = .check) (hop : s.regs.op = HostOp.read)
    (hlen : s.regs.reqLen ≠ 0) : EngineInv (setPhase .readTxn (loadRange s.regs.reqAddr s.regs.reqLen s)) := by
  have hin := inRequest_of_check hp
  refine h.goesOn hin (by constructor <;> rfl) rfl nofun ⟨by simpa [opFitsPhase] using hop,
    requestLatched_of_same h.latched hin (by constructor <;> rfl), rfl, rfl, ?_, pollsBounded_of_phase nofun nofun⟩
  simpa [readReady_iff] using hlen

/-- WRITE of a buffer that is not empty starts its loop at the buffer's first byte (R240). -/
theorem EngineInv.dispatchWrite (h : EngineInv s) (hp : s.phase = .check) (hop : s.regs.op = HostOp.write)
    (hne : s.regs.wbuf ≠ []) : EngineInv (setPhase .chunk (clearIdx (loadRange s.regs.reqAddr s.regs.reqLen s))) := by
  have hin := inRequest_of_check hp
  have hlen : s.regs.wbuf.length = s.regs.reqLen.toNat := ((requestLatched_iff s).mp h.latched hin).1 hop
  refine h.goesOn hin (by constructor <;> rfl) rfl nofun ⟨by simpa [opFitsPhase] using hop,
    requestLatched_of_same h.latched hin (by constructor <;> rfl), ?_,
    eraseLoopOk_of_op (by simp [hop, HostOp.write, HostOp.erase]), rfl, pollsBounded_of_phase nofun nofun⟩
  rw [writeLoopOk_iff]
  refine fun _ _ => ⟨fun h0 => hne ?_, by simp, by simp, .inl rfl⟩
  exact List.length_eq_zero_iff.mp (hlen.trans (by simpa using congrArg BitVec.toNat h0))

/-- ERASE of an aligned range that is not empty starts its loop at the range's first byte (R260). -/
theorem EngineInv.dispatchErase (h : EngineInv s) (hp : s.phase = .check) (hop : s.regs.op = HostOp.erase)
    (hal : eraseAligned s.params s.regs.reqAddr s.regs.reqLen = true) (hlen : s.regs.reqLen ≠ 0) :
    EngineInv (setPhase .unit (loadRange s.regs.reqAddr s.regs.reqLen s)) := by
  have hin := inRequest_of_check hp
  refine h.goesOn hin (by constructor <;> rfl) rfl nofun ⟨by simpa [opFitsPhase] using hop,
    requestLatched_of_same h.latched hin (by constructor <;> rfl),
    writeLoopOk_of_op (by simp [hop, HostOp.write, HostOp.erase]), ?_, rfl, pollsBounded_of_phase nofun nofun⟩
  rw [eraseLoopOk_iff]
  exact fun _ _ => ⟨hlen, Nat.le_refl _, hal, by simp, .inl rfl⟩

/-- CHECK answers at once or enters the operation's procedure; either keeps the invariant. -/
theorem EngineInv.dispatch {i : Instr} (h : EngineInv s) (hp : s.phase = .check)
    (hd : decode s.params (latchedWords s.regs) = .ok i) (he : exec i s = .next t) : EngineInv t := by
  have hin := inRequest_of_check hp
  have hports := h.portsInv (ne_halted_of_inRequest hin)
  have hduty := dutyOk_of_latched h.latched hin
  obtain ⟨hw, hn, -⟩ := (requestLatched_iff s).mp h.latched hin
  rw [decode_latchedWords hw hn] at hd
  obtain ⟨hop, rfl⟩ | ⟨hop, rfl⟩ | ⟨hop, rfl⟩ | ⟨hop, rfl⟩ | ⟨hop, rfl⟩ := decodeHeader_ok hd
  · rw [exec_hostInit_latched hop] at he
    cases he
    exact h.dispatchInit hp hop
  · rw [exec_hostRead_latched hop (hn (by rw [hop]; decide)) (hduty (.inl hop))] at he
    cases he
    split
    · exact engineInv_raise hports nofun
    · next hlen => exact h.dispatchRead hp hop hlen
  · rw [exec_hostWrite_latched hop (hw hop) (hduty (.inr (.inl hop)))] at he
    cases he
    split
    · exact engineInv_respondOk (hports.of_same (by constructor <;> rfl)) (.inl rfl)
    · next hne => exact h.dispatchWrite hp hop hne
  · rw [exec_hostErase_latched hop (hn (by rw [hop]; decide)) (hduty (.inr (.inr hop)))] at he
    cases he
    split
    · next hal =>
      split
      · exact engineInv_respondOk (hports.of_same (by constructor <;> rfl)) (.inl rfl)
      · next hlen => exact h.dispatchErase hp hop hal hlen
    · exact engineInv_raise hports nofun
  · rw [exec_hostChipErase_latched hop] at he
    cases he
    exact h.dispatchChipErase hp hop

/-- CHUNK keeps the invariant: the chunk fits its register (R23, R241). -/
theorem EngineInv.chunk (h : EngineInv s) (hp : s.phase = .chunk) : EngineInv (chunkStep s) := by
  have hin : inRequest s.phase = true := by rw [hp]; rfl
  have hop : s.regs.op = HostOp.write := by simpa [opFitsPhase, hp] using h.opPhase
  refine h.goesOn hin (chunkStep_samePorts s) rfl nofun ⟨by simp [opFitsPhase, hop, mutatingOp],
    requestLatched_of_same h.latched hin (by constructor <;> rfl), ?_,
    eraseLoopOk_of_op (by simp [hop, HostOp.write, HostOp.erase]), rfl, pollsBounded_of_zero h.paramsOk rfl⟩
  rw [writeLoopOk_iff]
  intro _ _
  obtain ⟨hrem, hsum, hcur, -⟩ := (writeLoopOk_iff s).mp h.writeLoop (by simp [inLoop, hp]) hop
  exact ⟨hrem, hsum, hcur, .inr (chunkSize_toNat ((Params.wf_iff _).mp h.paramsOk).1 _ _)⟩

/-- UNIT keeps the invariant: the unit is the one R262 selects. -/
theorem EngineInv.unit (h : EngineInv s) (hp : s.phase = .unit) : EngineInv (unitStep s) := by
  have hin : inRequest s.phase = true := by rw [hp]; rfl
  have hop : s.regs.op = HostOp.erase := by simpa [opFitsPhase, hp] using h.opPhase
  unfold unitStep
  split
  · next u hu =>
    refine h.goesOn hin (by constructor <;> rfl) rfl nofun ⟨by simp [opFitsPhase, hop, mutatingOp],
      requestLatched_of_same h.latched hin (by constructor <;> rfl),
      writeLoopOk_of_op (by simp [hop, HostOp.write, HostOp.erase]), ?_, rfl, pollsBounded_of_zero h.paramsOk rfl⟩
    rw [eraseLoopOk_iff]
    intro _ _
    obtain ⟨hrem, hle, hal, hcur, -⟩ := (eraseLoopOk_iff s).mp h.eraseLoop (by simp [inLoop, hp]) hop
    exact ⟨hrem, hle, hal, hcur, .inr hu⟩
  · exact engineInv_raise (h.portsInv (ne_halted_of_inRequest hin)) nofun

/-- SLEEP keeps the invariant: every register survives the wait (R320). -/
theorem EngineInv.sleeps (h : EngineInv s) (hp : s.phase = .sleep) : EngineInv (sleepStep s) := by
  have hin : inRequest s.phase = true := by rw [hp]; rfl
  have hb : pollsBounded (sleepStep s) = true := by
    rw [pollsBounded_iff]
    exact fun n hn _ => (pollsBounded_iff s).mp h.pollBound n hn (.inr hp)
  have hseq : SeqInv (sleepStep s) := by
    obtain ⟨hc, hmid⟩ | ⟨hc, hop⟩ := midLoop_or_init h (.inr hp)
    · exact h.seqInv.midLoop_move hmid (by simp [midLoop, inLoop, hc]) rfl rfl hb
    · exact .of_init hop (requestLatched_of_same h.latched hin (by constructor <;> rfl)) (by simp [opFitsPhase, hc, hop]) hb
  exact .of_parts { h.portsInv (ne_halted_of_inRequest hin) with } nofun hseq (h.response_of_eq (ne_resp_of_inRequest hin) rfl)

end

/-! ADVANCE (R243, R264). -/

/-- Past a chunk, the sums of WRITE's loop hold again: nothing wraps while bytes are left (R139, R243). -/
theorem advance_write_sums {p : Params} {addr len idx rem c : Word} (hfit : addr.toNat + len.toNat ≤ p.addrSpace)
    (hsum : idx.toNat + rem.toNat = len.toNat) (hc : c.toNat ≤ rem.toNat) (h0 : rem - c ≠ 0) :
    (idx + c).toNat + (rem - c).toNat = len.toNat ∧ addrAdd p (addr + idx) c = addr + (idx + c) := by
  have hspace := p.addrSpace_le
  have hrem : (rem - c).toNat = rem.toNat - c.toNat := BitVec.toNat_sub_of_le hc
  have hpos : rem.toNat - c.toNat ≠ 0 := fun e => h0 (BitVec.eq_of_toNat_eq (by simp [hrem, e]))
  have hidx : (idx + c).toNat = idx.toNat + c.toNat := by rw [BitVec.toNat_add]; omega
  have hcur : (addr + idx).toNat = addr.toNat + idx.toNat := by rw [BitVec.toNat_add]; omega
  refine ⟨by omega, ?_⟩
  rw [addrAdd_of_lt (by omega), BitVec.add_assoc]

/-- Past a unit, ERASE's loop holds again: what is left is aligned and ends where the range ends (R139, R264). -/
theorem advance_erase_sums {p : Params} {addr len rem n : Word} (hfit : addr.toNat + len.toNat ≤ p.addrSpace)
    (hle : rem.toNat ≤ len.toNat) (hal : eraseAligned p (addr + (len - rem)) rem = true) (hn : n.toNat ≤ rem.toNat)
    (hdvd : p.sectorSize ∣ n.toNat) (h0 : rem - n ≠ 0) :
    (rem - n).toNat ≤ len.toNat ∧ eraseAligned p (addrAdd p (addr + (len - rem)) n) (rem - n) = true ∧
      addrAdd p (addr + (len - rem)) n = addr + (len - (rem - n)) := by
  have hspace := p.addrSpace_le
  have hrem : (rem - n).toNat = rem.toNat - n.toNat := BitVec.toNat_sub_of_le hn
  have hpos : rem.toNat - n.toNat ≠ 0 := fun e => h0 (BitVec.eq_of_toNat_eq (by simp [hrem, e]))
  have hdone : (len - rem).toNat = len.toNat - rem.toNat := BitVec.toNat_sub_of_le hle
  have hcur : (addr + (len - rem)).toNat = addr.toNat + (len.toNat - rem.toNat) := by rw [BitVec.toNat_add]; omega
  obtain ⟨hca, hra⟩ := (eraseAligned_iff ..).mp hal
  have hadd : addrAdd p (addr + (len - rem)) n = addr + (len - rem) + n := addrAdd_of_lt (by omega)
  refine ⟨by omega, ?_, ?_⟩
  · have hnext : (addr + (len - rem) + n).toNat = (addr + (len - rem)).toNat + n.toNat := by rw [BitVec.toNat_add]; omega
    rw [hadd, eraseAligned_iff, hnext, hrem]
    exact ⟨Nat.mod_eq_zero_of_dvd (Nat.dvd_add (Nat.dvd_of_mod_eq_zero hca) hdvd),
      Nat.mod_eq_zero_of_dvd (Nat.dvd_sub (Nat.dvd_of_mod_eq_zero hra) hdvd)⟩
  · rw [hadd]
    bv_omega

section
variable {s t : State}

/-- The loop's test: a loop with nothing left ends with OK (R25). -/
theorem engineInv_loopTo {p : Phase} (h : PortsInv s) (hgo : s.regs.rem ≠ 0 → EngineInv (setPhase p s)) :
    EngineInv (loopTo p s) := by
  unfold loopTo
  split
  · exact engineInv_respondOk h (.inl rfl)
  · next h0 => exact hgo h0

theorem EngineInv.advanceWrite (h : EngineInv s) (hp : s.phase = .advance) (hop : s.regs.op = HostOp.write) :
    EngineInv (advanceWrite s) := by
  have hin : inRequest s.phase = true := by rw [hp]; rfl
  obtain ⟨hrem, hsum, hcur, hsize⟩ := (writeLoopOk_iff s).mp h.writeLoop (by simp [inLoop, hp]) hop
  obtain ⟨-, -, hfit⟩ := (dutyOk_iff ..).mp (dutyOk_of_latched h.latched hin (.inr (.inl hop)))
  have hc : (s.regs.chunk.setWidth 32).toNat ≤ s.regs.rem.toNat := by
    have hle := (chunkSize_bounds ((Params.wf_iff _).mp h.paramsOk).1 s.regs.cur s.regs.rem hrem).2.2.2
    rw [← hsize.resolve_left (by simp [hp])] at hle
    rwa [BitVec.toNat_setWidth_of_le (by decide)]
  refine engineInv_loopTo ((h.portsInv (ne_halted_of_inRequest hin)).of_same (.withRegs _ s)) fun h0 => ?_
  refine h.goesOn hin (by constructor <;> rfl) rfl nofun ⟨by simpa [opFitsPhase] using hop,
    requestLatched_of_same h.latched hin (by constructor <;> rfl), ?_,
    eraseLoopOk_of_op (by simp [hop, HostOp.write, HostOp.erase]), rfl, pollsBounded_of_phase nofun nofun⟩
  rw [writeLoopOk_iff]
  intro _ _
  obtain ⟨hsum', hcur'⟩ := advance_write_sums hfit hsum hc h0
  rw [← hcur] at hcur'
  exact ⟨h0, hsum', hcur', .inl rfl⟩

theorem EngineInv.advanceErase (h : EngineInv s) (hp : s.phase = .advance) (hop : s.regs.op = HostOp.erase) :
    EngineInv (advanceErase s) := by
  have hin : inRequest s.phase = true := by rw [hp]; rfl
  obtain ⟨-, hle, hal, hcur, hsel⟩ := (eraseLoopOk_iff s).mp h.eraseLoop (by simp [inLoop, hp]) hop
  obtain ⟨-, -, hfit⟩ := (dutyOk_iff ..).mp (dutyOk_of_latched h.latched hin (.inr (.inr hop)))
  have hsize := ((unitFits_iff ..).mp (selectUnit_fits (hsel.resolve_left (by simp [hp])))).2
  have hn : (BitVec.ofNat 32 (s.regs.unit.size s.params)).toNat = s.regs.unit.size s.params := by
    rw [BitVec.toNat_ofNat, Nat.mod_eq_of_lt (Nat.lt_of_le_of_lt hsize s.regs.rem.isLt)]
  have hdvd : s.params.sectorSize ∣ (BitVec.ofNat 32 (s.regs.unit.size s.params)).toNat := by
    rw [hn]; exact (s.regs.unit.size_dvd ((Params.wf_iff _).mp h.paramsOk).1).1
  refine engineInv_loopTo ((h.portsInv (ne_halted_of_inRequest hin)).of_same (.withRegs _ s)) fun h0 => ?_
  refine h.goesOn hin (by constructor <;> rfl) rfl nofun ⟨by simpa [opFitsPhase] using hop,
    requestLatched_of_same h.latched hin (by constructor <;> rfl),
    writeLoopOk_of_op (by simp [hop, HostOp.write, HostOp.erase]), ?_, rfl, pollsBounded_of_phase nofun nofun⟩
  rw [eraseLoopOk_iff]
  intro _ _
  rw [hcur] at hal
  obtain ⟨hle', hal', hcur'⟩ := advance_erase_sums hfit hle hal (hn.trans_le hsize) hdvd h0
  rw [← hcur] at hal' hcur'
  exact ⟨h0, hle', hal', hcur', .inl rfl⟩

/-- ADVANCE keeps the invariant, for each of the three operations that reach it. -/
theorem EngineInv.advance (h : EngineInv s) (hp : s.phase = .advance) (ha : advanceStep s = .next t) : EngineInv t := by
  unfold advanceStep at ha
  split_ifs at ha with hw he hc <;> cases ha
  · exact h.advanceWrite hp hw
  · exact h.advanceErase hp he
  · exact engineInv_respondOk (h.portsInv (by simp [hp])) (.inl rfl)

/-! IDLE, RESP and engine reset (R130, R136, R340). -/

theorem EngineInv.accept {r : Request} {rest : List Request} (h : EngineInv s) (hp : s.phase = .idle)
    (hduty : requestDutyOk s.params r = true) (hdata : requestComplete r = true) : EngineInv (accept r rest s) := by
  refine .of_parts { h.portsInv (by simp [hp]) with } nofun ⟨rfl, ?_, rfl, rfl, rfl, pollsBounded_of_phase nofun nofun⟩
    (h.response_of_eq (by simp [hp]) rfl)
  rw [requestLatched_iff]
  refine fun _ => ⟨fun hw => ?_, fun hn => if_neg hn, (requestDutyOk_iff ..).mpr ((requestDutyOk_iff ..).mp hduty)⟩
  have hw : r.op = HostOp.write := hw
  simpa [requestComplete, hw] using hdata

theorem EngineInv.deliver (h : EngineInv s) (hp : s.phase = .resp) : EngineInv (deliver s) := by
  obtain ⟨hok, herr, -⟩ := (respWellFormed_iff s).mp h.response
  refine .of_parts { h.portsInv (by simp [hp]) with respQuiet := rfl } nofun (.of_not_inRequest rfl) ?_
  rw [respWellFormed_iff]
  exact ⟨hok, fun hst => ⟨(herr hst).1, rfl⟩, .inl rfl⟩

theorem EngineInv.engineReset (h : EngineInv s) : EngineInv (engineReset s) :=
  .of_parts ⟨rfl, rfl, rfl, rfl, h.paramsOk⟩ nofun (.of_not_inRequest rfl) rfl

/-- Every row of R25 keeps the invariant. -/
theorem EngineInv.phaseStep (h : EngineInv s) (hst : PhaseStep s t) : EngineInv t := by
  cases hst with
  | call _ hc => rw [h.noCall] at hc; cases hc
  | wait => exact h
  | accept hp _ _ hduty hdata => exact h.accept hp hduty hdata
  | dispatch hp hd he => exact h.dispatch hp hd he
  | reserved hp => exact engineInv_raise (h.portsInv (by simp [hp])) nofun
  | chunk hp => exact h.chunk hp
  | unit hp => exact h.unit hp
  | sleep hp => exact h.sleeps hp
  | advance hp ha => exact h.advance hp ha
  | respond hp => exact h.deliver hp
  | issue hi he => exact h.issue hi he

end

end Sys2Proof.Machine
end

section
open Sys2Proof Sys2Proof.Machine

/-- Settles O46: engine reset and every row of R25 keep the invariant. -/
theorem stepKeepsInv : Obligations.StepKeepsInv := by
  intro s t h hstep
  cases hr : s.env.resetIn with
  | true => rw [step_resetIn hr] at hstep; cases hstep; exact h.engineReset
  | false => exact h.phaseStep (.of_step hr hstep)

end

section
/-! SUPPORT. Two runs that differ only in registers that the phase does not read (R137): the relation that every step keeps. -/

namespace Sys2Proof.Machine

/-- Two outcomes of the same kind, related states or the same stop. -/
inductive OutcomeRel (R : State → State → Prop) :
    Host.Outcome State Fault Refusal → Host.Outcome State Fault Refusal → Prop
  | next {s t : State} (h : R s t) : OutcomeRel R (.next s) (.next t)
  | fault (f : Fault) : OutcomeRel R (.fault f) (.fault f)
  | refused (r : Refusal) : OutcomeRel R (.refused r) (.refused r)

/-- The fields that `agreeOutsideRegs` compares. -/
structure AgreeOutside (s t : State) : Prop where
  params : s.params = t.params
  phase : s.phase = t.phase
  valid : s.resp.valid = t.resp.valid
  halted : s.halted = t.halted
  csN : s.csN = t.csN
  dataOut : s.dataOut = t.dataOut
  trace : s.trace = t.trace
  call : s.call = t.call
  env : s.env = t.env

theorem agreeOutsideRegs_iff (s t : State) : agreeOutsideRegs s t = true ↔ AgreeOutside s t := by
  simp only [agreeOutsideRegs, Bool.and_eq_true, beq_iff_eq]
  constructor
  · rintro ⟨⟨⟨⟨⟨⟨⟨⟨h1, h2⟩, h3⟩, h4⟩, h5⟩, h6⟩, h7⟩, h8⟩, h9⟩
    exact ⟨h1, h2, h3, h4, h5, h6, h7, h8, h9⟩
  · rintro ⟨h1, h2, h3, h4, h5, h6, h7, h8, h9⟩
    exact ⟨⟨⟨⟨⟨⟨⟨⟨h1, h2⟩, h3⟩, h4⟩, h5⟩, h6⟩, h7⟩, h8⟩, h9⟩

/-- The registers that a loop reads from its busy wait to ADVANCE, by the operation (R25, R243, R264). -/
structure LoopAgree (a b : Regs) : Prop where
  op : a.op = b.op
  write : a.op = HostOp.write → a.wbuf = b.wbuf ∧ a.cur = b.cur ∧ a.rem = b.rem ∧ a.idx = b.idx ∧ a.chunk = b.chunk
  erase : a.op = HostOp.erase → a.cur = b.cur ∧ a.rem = b.rem ∧ a.unit = b.unit

/-- The registers that are read from phase p on before they are written agree (R23, R25). -/
def LiveAgree (p : Phase) (s t : State) : Prop :=
  match p with
  | .idle | .idTxn | .rsten | .rst | .halted => True
  | .check => s.regs.op = t.regs.op ∧ s.regs.reqAddr = t.regs.reqAddr ∧ s.regs.reqLen = t.regs.reqLen ∧ s.regs.wbuf = t.regs.wbuf
  | .chunk => (s.regs.op = HostOp.write ∧ t.regs.op = HostOp.write) ∧
      s.regs.wbuf = t.regs.wbuf ∧ s.regs.cur = t.regs.cur ∧ s.regs.rem = t.regs.rem ∧ s.regs.idx = t.regs.idx
  | .unit => (s.regs.op = HostOp.erase ∧ t.regs.op = HostOp.erase) ∧ s.regs.cur = t.regs.cur ∧ s.regs.rem = t.regs.rem
  | .poll | .sleep => s.regs.polls = t.regs.polls ∧ s.regs.cont = t.regs.cont ∧ (s.regs.cont = .wren → LoopAgree s.regs t.regs)
  | .wren | .welchk | .mutate | .advance => LoopAgree s.regs t.regs
  | .readTxn => s.regs.cur = t.regs.cur ∧ s.regs.rem = t.regs.rem
  | .resp => s.resp = t.resp

/-- Two states that differ in nothing that a later step can read. -/
structure Sim (s t : State) : Prop where
  out : AgreeOutside s t
  live : LiveAgree s.phase s t

/-! The shared operations keep the relation. -/

section
variable {s t : State}

theorem AgreeOutside.setPhase (h : AgreeOutside s t) (p : Phase) : AgreeOutside (setPhase p s) (setPhase p t) :=
  { h with phase := rfl }

theorem AgreeOutside.withRegs (h : AgreeOutside s t) (a b : Regs) :
    AgreeOutside { s with regs := a } { t with regs := b } :=
  ⟨h.params, h.phase, h.valid, h.halted, h.csN, h.dataOut, h.trace, h.call, h.env⟩

theorem Sim.of_setPhase {p : Phase} (h : AgreeOutside s t) (hl : LiveAgree p s t) : Sim (setPhase p s) (setPhase p t) :=
  ⟨h.setPhase p, by cases p <;> exact hl⟩

theorem Sim.raise (h : AgreeOutside s t) (c : Cause) : Sim (raise c s) (raise c t) :=
  ⟨{ h with phase := rfl }, by simp [LiveAgree, h.valid]⟩

theorem Sim.respondOk (h : AgreeOutside s t) (d : List Byte) : Sim (respondOk d s) (respondOk d t) :=
  ⟨{ h with phase := rfl }, by simp [LiveAgree, h.valid]⟩

theorem Sim.halt (h : AgreeOutside s t) : Sim (halt s) (halt t) :=
  ⟨{ h with phase := rfl, halted := rfl, trace := by simp [h.trace] }, trivial⟩

theorem Sim.startPoll (h : AgreeOutside s t) (c : Cont) (hl : c = .wren → LoopAgree s.regs t.regs) :
    Sim (startPoll c s) (startPoll c t) :=
  ⟨{ h with phase := rfl }, rfl, rfl, fun hc => ⟨(hl hc).op, (hl hc).write, (hl hc).erase⟩⟩

/-- Both go through the same transaction, and are answered the same. -/
theorem Sim.transaction (h : Sim s t) (qs : List SegReq) :
    (transaction qs s).ok = (transaction qs t).ok ∧ (transaction qs s).rx = (transaction qs t).rx ∧
      Sim (transaction qs s).st (transaction qs t).st := by
  have hout := h.out
  refine ⟨by simp [hout.env], by simp [hout.env], { hout with csN := rfl, dataOut := ?_, trace := ?_, env := ?_ }, ?_⟩
  · simp [hout.env, hout.params]
  · simp [hout.env, hout.trace]
  · simp [hout.env]
  · have hl := h.live
    rw [transaction_st_phase]
    cases hp : s.phase <;> rw [hp] at hl <;> exact hl

end

section
variable {r r' : TxnResult}

theorem Sim.orBusFailure {k k' : State → State} (hok : r.ok = r'.ok) (h : Sim r.st r'.st)
    (hk : Sim (k r.st) (k' r'.st)) : Sim (orBusFailure r k) (orBusFailure r' k') := by
  unfold Machine.orBusFailure
  rw [← hok]
  split
  · exact hk
  · exact .raise h.out _

theorem Sim.continueIn {p : Phase} {k k' : State → State} {s t : State} (h : Sim s t) (hk : s.phase = p → Sim (k s) (k' t)) :
    Sim (continueIn p k s) (continueIn p k' t) := by
  unfold Machine.continueIn
  rw [← h.out.phase]
  split
  · next hp => exact hk hp
  · exact h

/-- In its phase a wire command goes on to q, where the same registers are live. -/
theorem Sim.goOn {p q : Phase} {s t : State} (h : Sim s t) (hl : LiveAgree p s t → LiveAgree q s t) :
    Sim (Machine.continueIn p (setPhase q) s) (Machine.continueIn p (setPhase q) t) :=
  h.continueIn fun hp => .of_setPhase h.out (hl (hp ▸ h.live))

theorem Sim.pollOutcome (hok : r.ok = r'.ok) (hrx : r.rx = r'.rx) (h : Sim r.st r'.st) (hp : r.st.phase = .poll) :
    Sim (pollOutcome r) (pollOutcome r') := by
  obtain ⟨hpolls, hcont, hloop⟩ : LiveAgree .poll r.st r'.st := hp ▸ h.live
  have hout : AgreeOutside (countPoll r.st) (countPoll r'.st) := { h.out with }
  have hcount : LiveAgree .sleep (countPoll r.st) (countPoll r'.st) :=
    ⟨congrArg (· + 1) hpolls, hcont, fun hc => ⟨(hloop hc).op, (hloop hc).write, (hloop hc).erase⟩⟩
  have hbound : boundReached (countPoll r'.st) = boundReached (countPoll r.st) := by
    simp [boundReached, hpolls, h.out.params]
  unfold Machine.pollOutcome
  simp only [← hok, ← hrx, hbound]
  split
  · split
    · split
      · exact .raise hout _
      · exact .of_setPhase hout hcount
    · simp only [countPoll_regs, ← hcont]
      refine .of_setPhase hout ?_
      cases hc : r.st.regs.cont
      · exact hcount.2.2 hc
      · trivial
  · simp only [countPoll_params, ← h.out.params]
    split
    · exact .halt hout
    · exact .raise hout _

theorem Sim.gateOutcome (hok : r.ok = r'.ok) (hrx : r.rx = r'.rx) (h : Sim r.st r'.st) (hp : r.st.phase = .welchk) :
    Sim (gateOutcome r) (gateOutcome r') := by
  have hl : LiveAgree .welchk r.st r'.st := hp ▸ h.live
  refine .orBusFailure hok h ?_
  rw [← hrx]
  split
  · exact .of_setPhase h.out hl
  · exact .raise h.out _

theorem Sim.statusOutcome (hok : r.ok = r'.ok) (hrx : r.rx = r'.rx) (h : Sim r.st r'.st) :
    Sim (statusOutcome r.st r) (statusOutcome r'.st r') := by
  unfold Machine.statusOutcome
  rw [← h.out.phase]
  split
  · next hp => exact .pollOutcome hok hrx h hp
  · next hp => exact .gateOutcome hok hrx h hp
  · exact .orBusFailure hok h h

theorem Sim.identifyOutcome (hok : r.ok = r'.ok) (hrx : r.rx = r'.rx) (h : Sim r.st r'.st) :
    Sim (identifyOutcome r) (identifyOutcome r') := by
  refine .orBusFailure hok h ?_
  rw [← hrx, ← h.out.params]
  split
  · exact h.continueIn fun _ => .startPoll h.out _ nofun
  · exact .raise h.out _

/-- Every wire command makes related states of the same transaction. -/
theorem Sim.wireOutcome (i : Instr) (hok : r.ok = r'.ok) (hrx : r.rx = r'.rx) (h : Sim r.st r'.st) :
    Sim (wireOutcome i r) (wireOutcome i r') := by
  cases i
  case identification => exact .identifyOutcome hok hrx h
  case readStatusRegister1 => exact .statusOutcome hok hrx h
  case pageProgram | sectorErase | block32Erase | block64Erase | chipErase | writeEnable | enableReset =>
    exact .orBusFailure hok h (h.goOn id)
  case readData | readStatusRegister2 => exact .orBusFailure hok h h
  case fastRead => exact .orBusFailure hok h (h.continueIn fun _ => hrx ▸ .respondOk h.out r.rx)
  case reset => exact .orBusFailure hok h (h.continueIn fun _ => .respondOk h.out [])
  case hostInit | hostRead | hostWrite | hostErase | hostChipErase => exact h

end

/-! The instructions and the phases keep the relation. -/

section
variable {s t : State}

theorem exec_wire_sim {i : Instr} (hi : isWire i = true) (h : Sim s t) : OutcomeRel Sim (exec i s) (exec i t) := by
  have hp := h.out.params
  by_cases hsize : ∃ a d, i = .pageProgram a d ∧ payloadSizeOk s.params d = false
  · obtain ⟨a, d, rfl, hd⟩ := hsize
    rw [exec_pageProgram_rejected hd, exec_pageProgram_rejected (hp ▸ hd)]
    exact .next (.raise h.out _)
  · have hok : ∀ a d, i = .pageProgram a d → payloadSizeOk s.params d = true :=
      fun a d hpd => by simpa using fun hd => hsize ⟨a, d, hpd, hd⟩
    rw [exec_wire hi hok, exec_wire hi (hp ▸ hok), ← hp]
    obtain ⟨hok, hrx, hst⟩ := h.transaction (segmentsOf s.params i)
    exact .next (.wireOutcome i hok hrx hst)

theorem exec_host_sim {i : Instr} (hi : isWire i = false) (h : AgreeOutside s t) : OutcomeRel Sim (exec i s) (exec i t) := by
  have hp := h.params
  cases i
  case hostInit => exact .next (.of_setPhase (h.withRegs _ _) trivial)
  case hostChipErase =>
    exact .next (.startPoll (h.withRegs _ _) _ fun _ => ⟨rfl,
      fun hw => absurd (show HostOp.chipErase = HostOp.write from hw) (by decide),
      fun he => absurd (show HostOp.chipErase = HostOp.erase from he) (by decide)⟩)
  case hostRead a l =>
    simp only [exec, execHostRead, ← hp]
    split
    · split
      · exact .next (.raise (h.withRegs _ _) _)
      · exact .next (.of_setPhase (h.withRegs _ _) ⟨rfl, rfl⟩)
    · exact .refused _
  case hostWrite a d =>
    simp only [exec, execHostWrite, ← hp]
    split
    · split
      · exact .next (.respondOk (h.withRegs _ _) _)
      · exact .next (.of_setPhase (h.withRegs _ _) ⟨⟨rfl, rfl⟩, rfl, rfl, rfl, rfl⟩)
    · exact .refused _
  case hostErase a l =>
    simp only [exec, execHostErase, ← hp]
    split
    · split
      · split
        · exact .next (.respondOk (h.withRegs _ _) _)
        · exact .next (.of_setPhase (h.withRegs _ _) ⟨⟨rfl, rfl⟩, rfl, rfl⟩)
      · exact .next (.raise (h.withRegs _ _) _)
    · exact .refused _
  all_goals cases hi

theorem idleStep_sim (h : Sim s t) : OutcomeRel Sim (idleStep s) (idleStep t) := by
  unfold idleStep
  rw [← h.out.env]
  split
  · exact .next h
  · rw [← h.out.params]
    split
    · exact .refused _
    · split
      · exact .refused _
      · exact .next ⟨{ h.out with phase := rfl, trace := by simp [h.out.trace], env := by simp [h.out.env] }, rfl, rfl, rfl, rfl⟩

theorem chunkStep_sim (h : AgreeOutside s t) (hl : LiveAgree .chunk s t) : Sim (chunkStep s) (chunkStep t) := by
  obtain ⟨⟨hop, hop'⟩, hbuf, hcur, hrem, hidx⟩ := hl
  refine .startPoll (h.withRegs _ _) _ fun _ => ⟨hop.trans hop'.symm, fun _ => ⟨hbuf, hcur, hrem, hidx, ?_⟩, fun he => ?_⟩
  · simp only [h.params, hcur, hrem]
  · exact absurd (hop.symm.trans he) (by decide)

theorem unitStep_sim (h : AgreeOutside s t) (hl : LiveAgree .unit s t) : Sim (unitStep s) (unitStep t) := by
  obtain ⟨⟨hop, hop'⟩, hcur, hrem⟩ := hl
  have hsel : selectUnit t.params t.regs.cur t.regs.rem = selectUnit s.params s.regs.cur s.regs.rem := by
    rw [h.params, hcur, hrem]
  unfold unitStep
  rw [hsel]
  split
  · next u _ =>
    exact .startPoll (h.withRegs { s.regs with unit := u } { t.regs with unit := u }) _ fun _ =>
      ⟨hop.trans hop'.symm, fun hw => absurd (hop.symm.trans hw) (by decide), fun _ => ⟨hcur, hrem, rfl⟩⟩
  · exact .raise h _

theorem loopTo_sim {p : Phase} (h : AgreeOutside s t) (hrem : s.regs.rem = t.regs.rem) (hl : LiveAgree p s t) :
    Sim (loopTo p s) (loopTo p t) := by
  unfold loopTo
  rw [← hrem]
  split
  · exact .respondOk h _
  · exact .of_setPhase h hl

theorem advanceStep_sim (h : AgreeOutside s t) (hl : LoopAgree s.regs t.regs) :
    OutcomeRel Sim (advanceStep s) (advanceStep t) := by
  unfold advanceStep
  rw [← hl.op]
  split_ifs with hw he
  · obtain ⟨hbuf, hcur, hrem, hidx, hchunk⟩ := hl.write hw
    refine .next (loopTo_sim (h.withRegs _ _) ?_ ⟨⟨hw, hl.op ▸ hw⟩, hbuf, ?_, ?_, ?_⟩) <;> simp only [h.params, hcur, hrem, hidx, hchunk]
  · obtain ⟨hcur, hrem, hunit⟩ := hl.erase he
    refine .next (loopTo_sim (h.withRegs _ _) ?_ ⟨⟨he, hl.op ▸ he⟩, ?_, ?_⟩) <;> simp only [h.params, hcur, hrem, hunit]
  · exact .next (.respondOk h _)
  · exact .fault _

/-- A phase issues the same command from both (R25). -/
theorem phaseInstr_sim (h : Sim s t) : phaseInstr s = phaseInstr t := by
  have hl := h.live
  have hp := h.out.params
  unfold phaseInstr
  rw [← h.out.phase]
  split
  case h_7 hmut =>
    rw [hmut] at hl
    have hl : LoopAgree s.regs t.regs := hl
    unfold mutatingInstr
    rw [← hl.op]
    split_ifs with hw he
    · obtain ⟨hbuf, hcur, -, hidx, hchunk⟩ := hl.write hw
      rw [← hp, ← hcur, payload, payload, ← hbuf, ← hidx, ← hchunk]
    · obtain ⟨hcur, -, hunit⟩ := hl.erase he
      rw [← hp, ← hcur, ← hunit]
    · rfl
    · rfl
  case h_8 hread =>
    obtain ⟨hcur, hrem⟩ : LiveAgree .readTxn s t := hread ▸ hl
    rw [← hp, ← hcur, ← hrem]
  all_goals rfl

theorem step_check_sim (h : Sim s t) (hr : s.env.resetIn = false) (hp : s.phase = .check) : OutcomeRel Sim (step s) (step t) := by
  have hr' : t.env.resetIn = false := h.out.env ▸ hr
  have hp' := h.out.phase ▸ hp
  have hwords : decode t.params (latchedWords t.regs) = decode s.params (latchedWords s.regs) := by
    obtain ⟨hop, haddr, hlen, hbuf⟩ : LiveAgree .check s t := hp ▸ h.live
    rw [← h.out.params, latchedWords, latchedWords, ← hop, ← haddr, ← hlen, ← hbuf]
  cases hd : decode s.params (latchedWords s.regs) with
  | ok i =>
    rw [step_check hr hp hd, step_check hr' hp' (hwords.trans hd)]
    exact exec_host_sim (isWire_of_decode_request hd) h.out
  | error e =>
    by_cases he : ∃ op, e = .reservedOp op
    · obtain ⟨op, rfl⟩ := he
      rw [step_check_reserved hr hp hd, step_check_reserved hr' hp' (hwords.trans hd)]
      exact .next (.raise h.out _)
    · rw [step_check_malformed hr hp hd (not_exists.mp he), step_check_malformed hr' hp' (hwords.trans hd) (not_exists.mp he)]
      exact .refused _

theorem step_idle_sim (h : Sim s t) (hr : s.env.resetIn = false) (hp : s.phase = .idle) : OutcomeRel Sim (step s) (step t) := by
  have hr' : t.env.resetIn = false := h.out.env ▸ hr
  have hp' := h.out.phase ▸ hp
  cases hc : s.call with
  | none =>
    rw [step_idle hr hp hc, step_idle hr' hp' (h.out.call ▸ hc)]
    exact idleStep_sim h
  | some w =>
    cases hd : decode s.params (.window w) with
    | ok i =>
      rw [step_call hr hp hc hd, step_call hr' hp' (h.out.call ▸ hc) (h.out.params ▸ hd)]
      cases hi : isWire i with
      | true => exact exec_wire_sim hi ⟨{ h.out with call := rfl }, by rw [hp]; trivial⟩
      | false => exact exec_host_sim hi { h.out with call := rfl }
    | error e =>
      rw [step_call_error hr hp hc hd, step_call_error hr' hp' (h.out.call ▸ hc) (h.out.params ▸ hd)]
      exact .refused _

theorem step_issue_sim (h : Sim s t) (hr : s.env.resetIn = false) (hp : s.phase.issues = true) :
    OutcomeRel Sim (step s) (step t) := by
  have hr' : t.env.resetIn = false := h.out.env ▸ hr
  cases hi : phaseInstr s with
  | some i =>
    rw [step_issue hr hi, step_issue hr' (phaseInstr_sim h ▸ hi)]
    exact exec_wire_sim (issuedIn_of_phaseInstr hi).1 h
  | none =>
    rw [step_issue_none hr hp hi, step_issue_none hr' (h.out.phase ▸ hp) (phaseInstr_sim h ▸ hi), h.out.phase]
    exact .fault _

/-- Every step keeps the relation, or stops both in the same way. -/
theorem step_sim (h : Sim s t) : OutcomeRel Sim (step s) (step t) := by
  have hout := h.out
  have hl := h.live
  cases hr : s.env.resetIn with
  | true =>
    rw [step_resetIn hr, step_resetIn (hout.env ▸ hr)]
    exact .next ⟨⟨hout.params, rfl, rfl, rfl, rfl, rfl, rfl, rfl, by simp [hout.env]⟩, trivial⟩
  | false =>
    have hr' : t.env.resetIn = false := hout.env ▸ hr
    have hph := hout.phase
    cases hp : s.phase <;> rw [hp] at hl hph
    case idle => exact step_idle_sim h hr hp
    case check => exact step_check_sim h hr hp
    case chunk => rw [step_chunk hr hp, step_chunk hr' hph.symm]; exact .next (chunkStep_sim hout hl)
    case unit => rw [step_unit hr hp, step_unit hr' hph.symm]; exact .next (unitStep_sim hout hl)
    case sleep =>
      rw [step_sleep hr hp, step_sleep hr' hph.symm]
      exact .next ⟨{ hout with phase := rfl, trace := by simp [hout.trace] }, hl⟩
    case advance => rw [step_advance hr hp, step_advance hr' hph.symm]; exact advanceStep_sim hout hl
    case resp =>
      have hl : s.resp = t.resp := hl
      rw [step_resp hr hp, step_resp hr' hph.symm]
      exact .next ⟨{ hout with phase := rfl, valid := rfl, trace := by simp [hout.trace, hl] }, trivial⟩
    case halted => rw [step_halted hr hp, step_halted hr' hph.symm]; exact .fault _
    all_goals exact step_issue_sim h hr (by rw [hp]; rfl)

/-- Any number of steps keeps the relation. -/
theorem run_sim (k : Nat) (h : Sim s t) : OutcomeRel Sim (core.run k s) (core.run k t) := by
  induction k generalizing s t with
  | zero => exact .next h
  | succ k ih =>
    have hstep : OutcomeRel Sim (core.step s) (core.step t) := step_sim h
    simp only [Host.Core.run]
    generalize core.step s = o, core.step t = o' at hstep ⊢
    cases hstep with
    | next h' => exact ih h'
    | fault f => exact .fault f
    | refused f => exact .refused f

theorem OutcomeRel.sameOutside {o o' : Host.Outcome State Fault Refusal} (h : OutcomeRel Sim o o') : sameOutside o o' := by
  cases h with
  | next h => exact (agreeOutsideRegs_iff ..).mpr h.out
  | fault => rfl
  | refused => rfl

end

end Sys2Proof.Machine
end

section
open Sys2Proof Sys2Proof.Machine

/-- Settles O60: in IDLE no register is live, and every step keeps the agreement of the live ones. -/
theorem noRegisterCarriesOver : Obligations.NoRegisterCarriesOver := by
  intro k s t hp h
  exact (run_sim k ⟨(agreeOutsideRegs_iff s t).mp h, by rw [hp]; trivial⟩).sameOutside

end

section
/-! SUPPORT. The order of requests and responses along the trace (R83, R137, R141): what one event more does to the place where the
trace stands, and where each phase leaves it. -/

namespace Sys2Proof.Machine

section
variable {s t : State}

theorem requestsInOrder_iff (s : State) : requestsInOrder s = true ↔ runState s.trace = some s.phase.runState := by
  simp [requestsInOrder]

/-- The newest event moves the trace from where it stood before. -/
theorem runState_snoc (tr : List Event) (e : Event) : runState (tr ++ [e]) = (runState tr).bind fun r => r.next e := by
  simp [runState]

/-- A step without an event stays in order if it stays on its side of the request. -/
theorem requestsInOrder_of_quiet (h : requestsInOrder s = true) (htrace : t.trace = s.trace)
    (hside : t.phase.runState = s.phase.runState) : requestsInOrder t = true := by
  rw [requestsInOrder_iff] at h ⊢
  rw [htrace, hside, h]

/-- A step with one event stays in order if its phase goes where the event leads. -/
theorem requestsInOrder_of_event {e : Event} (h : requestsInOrder s = true) (htrace : t.trace = s.trace ++ [e])
    (hnext : s.phase.runState.next e = some t.phase.runState) : requestsInOrder t = true := by
  rw [requestsInOrder_iff] at h ⊢
  rw [htrace, runState_snoc, h]
  exact hnext

/-! Where the steps leave the request. -/

theorem unitStep_inside (s : State) : (unitStep s).phase.runState = .inside := by
  unfold unitStep
  split <;> rfl

theorem loopTo_inside {p : Phase} (hp : p.runState = .inside) (s : State) : (loopTo p s).phase.runState = .inside := by
  unfold loopTo
  split
  · rfl
  · exact hp

theorem advanceStep_inside (h : advanceStep s = .next t) : t.phase.runState = .inside := by
  unfold advanceStep at h
  split_ifs at h <;> cases h
  · exact loopTo_inside rfl _
  · exact loopTo_inside rfl _
  · rfl

/-- CHECK enters the operation's procedure or RESP. -/
theorem exec_host_inside {i : Instr} (hi : isWire i = false) (h : exec i s = .next t) : t.phase.runState = .inside := by
  cases i
  case hostInit | hostChipErase => cases h; rfl
  case hostRead a l =>
    simp only [exec, execHostRead] at h
    split at h <;> cases h
    split <;> rfl
  case hostWrite a d =>
    simp only [exec, execHostWrite] at h
    split at h <;> cases h
    split <;> rfl
  case hostErase a l =>
    simp only [exec, execHostErase] at h
    split at h <;> cases h
    split
    · split <;> rfl
    · rfl
  all_goals cases hi

/-- After its transaction a wire command stays inside the request, or halts with the event that ends the trace (R207). -/
theorem WireEnd.requestsInOrder {i : Instr} {r : TxnResult} (hend : WireEnd i r t) (hin : r.st.phase.runState = .inside)
    (h : requestsInOrder r.st = true) : requestsInOrder t = true := by
  cases hend with
  | pollHalts => exact requestsInOrder_of_event h rfl (by rw [hin]; rfl)
  | returned => exact h
  | pollReady =>
    refine requestsInOrder_of_quiet h rfl ?_
    rw [hin, setPhase_phase]
    cases r.st.regs.cont <;> rfl
  | _ => exact requestsInOrder_of_quiet h rfl hin.symm

/-- A wire command issued inside a request keeps the order: its one transaction comes inside too. -/
theorem exec_wire_requestsInOrder {i : Instr} (hi : isWire i = true) (hin : s.phase.runState = .inside)
    (h : requestsInOrder s = true) (he : exec i s = .next t) : requestsInOrder t = true := by
  obtain hend | ⟨-, rfl⟩ := WireEnd.of_exec hi he
  · exact hend.requestsInOrder hin (requestsInOrder_of_event h rfl (by rw [transaction_st_phase, hin]; rfl))
  · exact requestsInOrder_of_quiet h rfl hin.symm

/-- The phases that issue a wire command lie inside a request (R25). -/
theorem runState_of_issues {p : Phase} (h : p.issues = true) : p.runState = .inside := by
  revert h
  cases p <;> decide

/-- Every row of R25 keeps the order. -/
theorem PhaseStep.requestsInOrder (hst : PhaseStep s t) (hcall : s.call = none) (h : requestsInOrder s = true) :
    requestsInOrder t = true := by
  cases hst with
  | call _ hc => rw [hcall] at hc; cases hc
  | wait => exact h
  | accept hp => exact requestsInOrder_of_event h rfl (by rw [hp]; rfl)
  | dispatch hp hd he =>
    have hi := isWire_of_decode_request hd
    exact requestsInOrder_of_quiet h (exec_host_samePorts hi he).trace (by rw [exec_host_inside hi he, hp]; rfl)
  | reserved hp | chunk hp => exact requestsInOrder_of_quiet h rfl (by rw [hp]; rfl)
  | unit hp => exact requestsInOrder_of_quiet h (unitStep_samePorts s).trace (by rw [unitStep_inside, hp]; rfl)
  | sleep hp => exact requestsInOrder_of_event h rfl (by rw [hp]; rfl)
  | advance hp ha =>
    exact requestsInOrder_of_quiet h (advanceStep_samePorts ha).trace (by rw [advanceStep_inside ha, hp]; rfl)
  | respond hp => exact requestsInOrder_of_event h rfl (by rw [hp]; rfl)
  | issue hi he =>
    exact exec_wire_requestsInOrder (issuedIn_of_phaseInstr hi).1 (runState_of_issues (issues_of_phaseInstr hi)) h he

end

end Sys2Proof.Machine
end

section
/-! SUPPORT. The plan of an ERASE (R262, R267): one unit more, and what each unit takes from an aligned range. -/

namespace Sys2Proof.Machine

/-- A sector holds at least one byte: it divides the wire's address space. -/
theorem sectorSize_pos {p : Params} (hp : p.geometryOk = true) : 0 < p.sectorSize :=
  Nat.pos_of_dvd_of_pos (Params.sectorSize_dvd hp) p.wireSpace_pos

theorem eraseSchedule_zero (p : Params) (fuel : Nat) (cur : Word) : eraseSchedule p fuel cur 0 = [] := by
  cases fuel <;> simp [eraseSchedule]

theorem eraseSchedule_succ {p : Params} {cur rem : Word} {u : EraseUnit} (fuel : Nat) (h0 : rem ≠ 0)
    (hu : selectUnit p cur rem = some u) : eraseSchedule p (fuel + 1) cur rem =
      (wireAddr p cur, u) ::
        eraseSchedule p fuel (cur + BitVec.ofNat 32 (u.size p)) (rem - BitVec.ofNat 32 (u.size p)) := by
  rw [eraseSchedule, if_neg h0, hu]

@[simp] theorem unitBytes_cons (p : Params) (x : WireAddr × EraseUnit) (us : List (WireAddr × EraseUnit)) :
    unitBytes p (x :: us) = x.2.size p + unitBytes p us := by
  simp [unitBytes]

/-- A unit holds at least a sector (R8). -/
theorem EraseUnit.sectorSize_le {p : Params} (hp : p.geometryOk = true) (u : EraseUnit) : p.sectorSize ≤ u.size p := by
  obtain ⟨hsector, hwire⟩ := u.size_dvd hp
  exact Nat.le_of_dvd (Nat.pos_of_dvd_of_pos hwire p.wireSpace_pos) hsector

/-- What a unit no larger than the rest leaves of it (R264). -/
theorem rem_sub_size_toNat {p : Params} {rem : Word} {u : EraseUnit} (hle : u.size p ≤ rem.toNat) :
    (rem - BitVec.ofNat 32 (u.size p)).toNat = rem.toNat - u.size p := by
  have hn : (BitVec.ofNat 32 (u.size p)).toNat = u.size p := by
    rw [BitVec.toNat_ofNat, Nat.mod_eq_of_lt (Nat.lt_of_le_of_lt hle rem.isLt)]
  rw [BitVec.toNat_sub_of_le (hn.trans_le hle), hn]

/-- The fuel counts sectors, and a unit takes at least one. -/
theorem sectors_after_unit {p : Params} {n fuel : Nat} (hp : p.geometryOk = true) (u : EraseUnit)
    (hfuel : n / p.sectorSize ≤ fuel + 1) : (n - u.size p) / p.sectorSize ≤ fuel := by
  have hpos := sectorSize_pos hp
  have hsector := u.sectorSize_le hp
  have hlt : n < (fuel + 1) * p.sectorSize + p.sectorSize := by
    rw [← Nat.succ_mul]
    exact (Nat.div_lt_iff_lt_mul hpos).mp (Nat.lt_succ_of_le hfuel)
  have hleft : n - u.size p < (fuel + 1) * p.sectorSize := by
    have hroom : 0 < (fuel + 1) * p.sectorSize := Nat.mul_pos fuel.succ_pos hpos
    omega
  exact Nat.le_of_lt_succ ((Nat.div_lt_iff_lt_mul hpos).mpr hleft)

/-- From the aligned address a on, with a sector's fuel for each sector, the units make up what is left and lie one after the other.
The address is a natural number, so that the range may end at 2^32, where a word wraps. -/
theorem eraseSchedule_covers {p : Params} (hp : p.geometryOk = true) (fuel a : Nat) (rem : Word)
    (ha : p.sectorSize ∣ a) (hr : p.sectorSize ∣ rem.toNat) (hend : a + rem.toNat ≤ 2 ^ 32)
    (hfuel : rem.toNat / p.sectorSize ≤ fuel) :
    unitBytes p (eraseSchedule p fuel (BitVec.ofNat 32 a) rem) = rem.toNat ∧
      contiguousFrom p a (eraseSchedule p fuel (BitVec.ofNat 32 a) rem) = true := by
  induction fuel generalizing a rem with
  | zero =>
    have h0 : rem.toNat = 0 := Nat.eq_zero_of_dvd_of_div_eq_zero hr (Nat.le_zero.mp hfuel)
    exact ⟨h0.symm, rfl⟩
  | succ fuel ih =>
    by_cases h0 : rem = 0
    · subst h0
      rw [eraseSchedule_zero]
      exact ⟨rfl, rfl⟩
    · have hpos : rem.toNat ≠ 0 := fun e => h0 (BitVec.eq_of_toNat_eq (by simpa using e))
      have hcur : (BitVec.ofNat 32 a).toNat = a := by rw [BitVec.toNat_ofNat, Nat.mod_eq_of_lt (by omega)]
      obtain ⟨u, hu⟩ := selectUnit_of_aligned (p := p) (cur := BitVec.ofNat 32 a) (rem := rem)
        ((eraseAligned_iff ..).mpr ⟨by rw [hcur]; exact Nat.mod_eq_zero_of_dvd ha, Nat.mod_eq_zero_of_dvd hr⟩) h0
      obtain ⟨halign, hle⟩ := (unitFits_iff ..).mp (selectUnit_fits hu)
      rw [hcur] at halign
      have hdvd := (u.size_dvd hp).1
      have hrem := rem_sub_size_toNat hle
      obtain ⟨hbytes, hcont⟩ := ih (a + u.size p) (rem - BitVec.ofNat 32 (u.size p)) (Nat.dvd_add ha hdvd)
        (hrem ▸ Nat.dvd_sub hr hdvd) (by omega) (hrem ▸ sectors_after_unit hp u hfuel)
      rw [BitVec.ofNat_add] at hbytes hcont
      rw [eraseSchedule_succ fuel h0 hu]
      exact ⟨by rw [unitBytes_cons, hbytes, hrem]; exact Nat.add_sub_cancel' hle, by simp [contiguousFrom, halign, hcont]⟩

end Sys2Proof.Machine
end

section
/-! SUPPORT. What the facts stated of the device say of a transaction that succeeded (R91, R94). -/

namespace Sys2Proof.Machine

/-- A write and a read that succeeded were both carried out (R163), and the read's bytes are the result. -/
theorem transaction_write_read {bytes : List Byte} {n : Nat} {s : State} (hok : (transaction [.w bytes, .r n] s).ok = true) :
    (transaction [.w bytes, .r n] s).st.trace = s.trace ++ [.txn [.w bytes true, .r n (s.env.rxAt 1 n) true]] ∧
      (transaction [.w bytes, .r n] s).rx = s.env.rxAt 1 n := by
  have hall : answersOk s.env 2 := (runSegs_all_ok_iff _ _).mp hok
  have hsegs : runSegs [.w bytes, .r n] s.env = [.w bytes true, .r n (s.env.rxAt 1 n) true] := by
    simp [runSegs_cons, runSeg, segWrite, segRead, hall 0 (by decide), hall 1 (by decide)]
  rw [transaction_st_trace, transaction_rx, hsegs]
  exact ⟨rfl, List.append_nil _⟩

/-- A trace that keeps R91 keeps it from any event on. -/
theorem latchSetAfterEnable_of_append {older newer : List Event} (h : latchSetAfterEnable (older ++ newer) = true) :
    latchSetAfterEnable newer = true := by
  induction older with
  | nil => exact h
  | cons e older ih =>
    refine ih ?_
    rw [List.cons_append] at h
    generalize older ++ newer = evs at h ⊢
    cases evs with
    | nil => rfl
    | cons g rest => exact (Bool.and_eq_true_iff.mp h).2

/-- R91 at the newest two events: after a successful WriteEnable, a status read that succeeded shows WEL = 1. -/
theorem wel_of_latchSetAfterEnable {older : List Event} {e : Event} {bytes : List Byte} {b : Byte} (he : e.enabled = true)
    (h : latchSetAfterEnable (older ++ [e, .txn [.w bytes true, .r 1 [b] true]]) = true) : wel b = true := by
  simpa [latchSetAfterEnable, he] using latchSetAfterEnable_of_append h

/-- The gate's newest event is the WriteEnable (R84). -/
theorem trace_of_handshake_welchk {s : State} (hp : s.phase = .welchk) (h : handshakeSoFar s = true) :
    ∃ older e, s.trace = older ++ [e] ∧ e.enabled = true := by
  unfold handshakeSoFar at h
  rw [hp] at h
  split at h
  case h_3 w p older hphase htrace =>
    exact ⟨(p :: older).reverse, w, by rw [← List.reverse_cons, ← htrace, List.reverse_reverse], (Bool.and_eq_true_iff.mp h).1⟩
  all_goals simp_all

section
variable {i : Instr} {r : TxnResult} {t : State}

/-- Outside POLL a wire command adds no event to that of its transaction: only a poll halts (R207). -/
theorem WireEnd.trace_of_not_poll (h : WireEnd i r t) (hp : r.st.phase ≠ .poll) : t.trace = r.st.trace := by
  obtain hsame | ⟨-, hpoll, -⟩ := h.samePorts
  · exact hsame.trace
  · exact absurd hpoll hp

/-- Where the status read of WELCHK, if it succeeds, shows WEL = 1, the gate passes or the bus fails (R210, R211). -/
theorem WireEnd.gate (h : WireEnd .readStatusRegister1 r t) (hp : r.st.phase = .welchk)
    (hw : r.ok = true → wel (statusByte r.rx) = true) :
    t.phase = .mutate ∨ (t.phase = .resp ∧ t.resp.cause = .busFailure) := by
  cases h with
  | gatePassed => exact .inl rfl
  | busFailure => exact .inr ⟨rfl, rfl⟩
  | gateClosed _ _ hok hclosed => simp [hw hok] at hclosed
  | _ => simp_all [issuedIn]

/-- Where the answer in ID_TXN, if the read succeeds, is the expected one, the check passes or the bus fails (R220, R221). -/
theorem WireEnd.identification (h : WireEnd .identification r t) (hp : r.st.phase = .idTxn)
    (hrx : r.ok = true → r.rx = [r.st.params.expectedMfr, r.st.params.expectedDev]) :
    t.phase = .poll ∨ (t.phase = .resp ∧ t.resp.cause = .busFailure) := by
  cases h with
  | identified => exact .inl rfl
  | busFailure => exact .inr ⟨rfl, rfl⟩
  | idMismatch _ hok hother => exact absurd (hrx hok) hother
  | _ => simp_all [issuedIn]

end

/-- The status read of WELCHK in a trace that keeps R91. -/
theorem statusByte_of_latchSetAfterEnable {s : State} (hp : s.phase = .welchk) (hs : handshakeSoFar s = true)
    (hok : (transaction [.w [0x05], .r 1] s).ok = true)
    (h : latchSetAfterEnable (transaction [.w [0x05], .r 1] s).st.trace = true) :
    wel (statusByte (transaction [.w [0x05], .r 1] s).rx) = true := by
  obtain ⟨htxn, hrx⟩ := transaction_write_read hok
  obtain ⟨older, e, htrace, he⟩ := trace_of_handshake_welchk hp hs
  obtain ⟨b, hb⟩ := List.length_eq_one_iff.mp (s.env.rxAt_length 1 1)
  rw [htxn, hb, htrace, List.append_assoc] at h
  rw [hrx, hb]
  exact wel_of_latchSetAfterEnable he h

/-- A successful Identification of two bytes in a trace that keeps R94. -/
theorem rx_of_identifiesAsStated {s : State} {tx : List Byte}
    (hok : (transaction [.w (0x90 :: tx), .r 2] s).ok = true)
    (h : (transaction [.w (0x90 :: tx), .r 2] s).st.trace.all Event.identifiesAsStated = true) :
    (transaction [.w (0x90 :: tx), .r 2] s).rx = [0xEF, 0x17] := by
  obtain ⟨htxn, hrx⟩ := transaction_write_read hok
  rw [htxn, List.all_append, Bool.and_eq_true] at h
  rw [hrx]
  simpa [Event.identifiesAsStated, Opcode.identification] using h.2

end Sys2Proof.Machine
end

section
open Sys2Proof Sys2Proof.Machine

/-- Settles O49: engine reset empties the trace, and every row of R25 keeps the order. -/
theorem stepKeepsRequestsInOrder : Obligations.StepKeepsRequestsInOrder := by
  intro s t hinv h hstep
  cases hr : s.env.resetIn with
  | true => rw [step_resetIn hr] at hstep; cases hstep; rfl
  | false => exact (PhaseStep.of_step hr hstep).requestsInOrder hinv.noCall h

/-- Settles O54, by induction on the fuel of the plan: a unit of the aligned range leaves an aligned range. -/
theorem erasePlanCoversTheRange : Obligations.ErasePlanCoversTheRange := by
  intro p addr len hp haddr hlen hend
  have h := eraseSchedule_covers hp _ addr.toNat len (Nat.dvd_of_mod_eq_zero haddr) (Nat.dvd_of_mod_eq_zero hlen) hend le_rfl
  rwa [BitVec.ofNat_toNat, BitVec.setWidth_eq] at h

/-- Settles O57: the transaction's event, under the fact stated of the device, gives the byte that the check reads. -/
theorem statedDeviceFactsPassTheChecks : Obligations.StatedDeviceFactsPassTheChecks := by
  constructor
  · intro s t hr hp hs hstep hfact
    rw [step_issue hr (i := .readStatusRegister1) (by rw [phaseInstr, hp])] at hstep
    obtain hend | ⟨⟨_, _, hi, -⟩, -⟩ := WireEnd.of_exec rfl hstep
    · rw [hend.trace_of_not_poll (by simp [hp])] at hfact
      exact hend.gate hp fun hok => statusByte_of_latchSetAfterEnable hp hs hok hfact
    · cases hi
  · intro s t hr hp hmfr hdev hrx hstep hfact
    rw [step_issue hr (i := .identification) (by rw [phaseInstr, hp])] at hstep
    obtain hend | ⟨⟨_, _, hi, -⟩, -⟩ := WireEnd.of_exec rfl hstep
    · rw [hend.trace_of_not_poll (by simp [hp])] at hfact
      have hsegs : segmentsOf s.params .identification =
          [.w (0x90 :: List.replicate s.params.idPlaceholders s.params.idPlaceholderValue), .r 2] := by
        simp [segmentsOf, readUnlessZero, hrx]
      rw [hsegs] at hend hfact
      refine hend.identification hp fun hok => ?_
      rw [transaction_st_params, hmfr, hdev]
      exact rx_of_identifiesAsStated hok hfact
    · cases hi

/-- Settles O8: the bytes driven and clocked in by each command's encoding. -/
theorem bytesMovedPerTransaction : Obligations.BytesMovedPerTransaction := by
  unfold Obligations.BytesMovedPerTransaction
  intro moves
  have moves_of {i : Instr} {w : Window} {k : Nat} (hw : encode Params.default i = .window w) (hk : clocked w = k) : moves i k :=
    ⟨w, hw, hk⟩
  refine ⟨?_, ?_, moves_of rfl rfl, ?_, ?_, ?_, ?_⟩
  · simp only [List.forall_mem_cons]
    exact ⟨moves_of rfl rfl, moves_of rfl rfl, moves_of rfl rfl, moves_of rfl rfl, nofun⟩
  · simp only [List.forall_mem_cons]
    exact ⟨moves_of rfl rfl, moves_of rfl rfl, nofun⟩
  · intro a
    simp only [List.forall_mem_cons]
    exact ⟨moves_of rfl rfl, moves_of rfl rfl, moves_of rfl rfl, nofun⟩
  · intro a data
    exact moves_of rfl (by simp [clocked]; omega)
  · intro a n
    exact moves_of rfl rfl
  · intro a n
    exact moves_of rfl rfl

end

section
/-! SUPPORT. What the decoder reads, both ways: each frame format admits exactly the bytes that its instruction drives (R107 to R114),
so a window decodes to an instruction exactly when it is the window of that instruction's encoding; and a request that decodes is its
header and its data (R101, R103). -/

namespace Sys2Proof

/-! The frame formats (R107). -/

namespace Frame

section
variable {p : Params} {op : Byte} {rest : List Byte} {n size : Nat} {i j : Instr}

/-- A format without operands is one check. -/
theorem ok_ite_iff {c : Prop} [Decidable c] {e : DecodeError} :
    (if c then .ok i else .error e : Except DecodeError Instr) = .ok j ↔ c ∧ j = i := by
  split <;> simp_all [eq_comm]

/-- FRAME_CMD (R108). -/
theorem cmd_ok_iff : cmd op i rest n = .ok j ↔ rest = [] ∧ n = 0 ∧ j = i := ok_ite_iff.trans and_assoc

/-- FRAME_CMD_RX (R109). -/
theorem cmdRx_ok_iff : cmdRx op i rest n = .ok j ↔ rest = [] ∧ n = 1 ∧ j = i := ok_ite_iff.trans and_assoc

/-- FRAME_ID (R110). -/
theorem id_ok_iff : Frame.id p op i rest n = .ok j ↔
    rest = List.replicate p.idPlaceholders p.idPlaceholderValue ∧ n = p.idRx ∧ j = i := ok_ite_iff.trans and_assoc

/-- FRAME_ADDR (R111). -/
theorem addr_ok_iff {k : WireAddr → Instr} : addr op size k rest n = .ok j ↔
    ∃ a, rest = be3 a ∧ n = 0 ∧ unitAligned size a = true ∧ j = k a := by
  constructor
  · intro h
    unfold addr at h
    split at h
    · split_ifs at h with hn hal
      cases h
      exact ⟨_, (be3_ofBe3 ..).symm, not_not.mp hn, hal, rfl⟩
    · cases h
  · rintro ⟨a, rfl, rfl, hal, rfl⟩
    simp [addr, be3, ofBe3_be3, hal]

/-- FRAME_ADDR_TX (R112). -/
theorem addrTx_ok_iff {k : WireAddr → List Byte → Instr} : addrTx p op k rest n = .ok j ↔
    ∃ a payload, rest = be3 a ++ payload ∧ n = 0 ∧ payloadSizeOk p payload = true ∧ fitsPage p a payload = true ∧
      j = k a payload := by
  constructor
  · intro h
    unfold addrTx at h
    split at h
    · split_ifs at h with hn hsize hpage
      cases h
      exact ⟨_, _, by rw [be3_ofBe3]; rfl, not_not.mp hn, by simpa using hsize, by simpa using hpage, rfl⟩
    · cases h
  · rintro ⟨a, payload, rfl, rfl, hsize, hpage, rfl⟩
    simp [addrTx, be3, ofBe3_be3, hsize, hpage]

/-- FRAME_ADDR_RX (R113). -/
theorem addrRx_ok_iff {k : WireAddr → Nat → Instr} : addrRx op k rest n = .ok j ↔ ∃ a, rest = be3 a ∧ 1 ≤ n ∧ j = k a n := by
  constructor
  · intro h
    unfold addrRx at h
    split at h
    · split_ifs at h with hn
      cases h
      exact ⟨_, (be3_ofBe3 ..).symm, Nat.one_le_iff_ne_zero.mpr hn, rfl⟩
    · cases h
  · rintro ⟨a, rfl, hn, rfl⟩
    simp [addrRx, be3, ofBe3_be3, Nat.one_le_iff_ne_zero.mp hn]

/-- FRAME_ADDR_DUMMY_RX (R114). -/
theorem addrDummyRx_ok_iff {k : WireAddr → Nat → Instr} : addrDummyRx p op k rest n = .ok j ↔
    ∃ a, rest = be3 a ++ List.replicate p.fastReadDummy p.dummyValue ∧ 1 ≤ n ∧ j = k a n := by
  constructor
  · intro h
    unfold addrDummyRx at h
    split at h
    · split_ifs at h with hd hn
      cases h
      exact ⟨_, by rw [be3_ofBe3, not_not.mp hd]; rfl, Nat.one_le_iff_ne_zero.mpr hn, rfl⟩
    · cases h
  · rintro ⟨a, rfl, hn, rfl⟩
    simp [addrDummyRx, be3, ofBe3_be3, Nat.one_le_iff_ne_zero.mp hn]

end

end Frame

namespace Machine

section
variable {p : Params} {i : Instr}

/-! Windows (R105, R118). -/

/-- Whatever a frame decodes to has admitted operands, and the frame is the one it encodes to: one case per row of
the opcode map (R118). -/
theorem encode_of_decodeFrame {op : Byte} {rest : List Byte} {n : Nat} (h : decodeFrame p op rest n = .ok i) :
    i.WellFormed p = true ∧ encode p i = .window ⟨op :: rest, n⟩ := by
  rw [decodeFrame] at h
  obtain ⟨rfl, h⟩ | ⟨-, h⟩ := ite_eq_iff.mp h
  · obtain ⟨rfl, rfl, rfl⟩ := Frame.id_ok_iff.mp h
    exact ⟨rfl, rfl⟩
  obtain ⟨rfl, h⟩ | ⟨-, h⟩ := ite_eq_iff.mp h
  · obtain ⟨a, payload, rfl, rfl, hsize, hpage, rfl⟩ := Frame.addrTx_ok_iff.mp h
    exact ⟨Bool.and_eq_true_iff.mpr ⟨hsize, hpage⟩, rfl⟩
  obtain ⟨rfl, h⟩ | ⟨-, h⟩ := ite_eq_iff.mp h
  · obtain ⟨a, rfl, hn, rfl⟩ := Frame.addrRx_ok_iff.mp h
    exact ⟨decide_eq_true hn, rfl⟩
  obtain ⟨rfl, h⟩ | ⟨-, h⟩ := ite_eq_iff.mp h
  · obtain ⟨a, rfl, hn, rfl⟩ := Frame.addrDummyRx_ok_iff.mp h
    exact ⟨decide_eq_true hn, rfl⟩
  iterate 2 -- the two status reads
    obtain ⟨rfl, h⟩ | ⟨-, h⟩ := ite_eq_iff.mp h
    · obtain ⟨rfl, rfl, rfl⟩ := Frame.cmdRx_ok_iff.mp h
      exact ⟨rfl, rfl⟩
  obtain ⟨rfl, h⟩ | ⟨-, h⟩ := ite_eq_iff.mp h
  · obtain ⟨rfl, rfl, rfl⟩ := Frame.cmd_ok_iff.mp h
    exact ⟨rfl, rfl⟩
  iterate 3 -- the three unit erases
    obtain ⟨rfl, h⟩ | ⟨-, h⟩ := ite_eq_iff.mp h
    · obtain ⟨a, rfl, rfl, halign, rfl⟩ := Frame.addr_ok_iff.mp h
      exact ⟨halign, rfl⟩
  iterate 3 -- ChipErase, EnableReset and Reset
    obtain ⟨rfl, h⟩ | ⟨-, h⟩ := ite_eq_iff.mp h
    · obtain ⟨rfl, rfl, rfl⟩ := Frame.cmd_ok_iff.mp h
      exact ⟨rfl, rfl⟩
  cases h

/-- A window in which no byte is driven decodes to nothing; any other is a frame. -/
theorem encode_of_decode_window {w : Window} (h : decode p (.window w) = .ok i) :
    i.WellFormed p = true ∧ encode p i = .window w := by
  obtain ⟨_ | ⟨op, rest⟩, n⟩ := w
  · cases h
  · exact encode_of_decodeFrame h

/-- A wire command with admitted operands is read back from its window: the frame of its opcode admits the bytes it drives. -/
theorem decode_encode_wire (hi : isWire i = true) (h : i.WellFormed p = true) : decode p (encode p i) = .ok i := by
  cases i with
  | identification => exact Frame.id_ok_iff.mpr ⟨rfl, rfl, rfl⟩
  | pageProgram a payload =>
    obtain ⟨hsize, hpage⟩ := Bool.and_eq_true_iff.mp h
    exact Frame.addrTx_ok_iff.mpr ⟨a, payload, rfl, rfl, hsize, hpage, rfl⟩
  | readData a n => exact Frame.addrRx_ok_iff.mpr ⟨a, rfl, of_decide_eq_true h, rfl⟩
  | fastRead a n => exact Frame.addrDummyRx_ok_iff.mpr ⟨a, rfl, of_decide_eq_true h, rfl⟩
  | sectorErase a | block32Erase a | block64Erase a => exact Frame.addr_ok_iff.mpr ⟨a, rfl, rfl, h, rfl⟩
  | readStatusRegister1 | readStatusRegister2 | writeEnable | chipErase | enableReset | reset => rfl
  | hostInit | hostRead | hostWrite | hostErase | hostChipErase => cases hi

/-! Requests (R101 to R103). -/

/-- A host operation with admitted operands is read back from its request. -/
theorem decode_encode_host (hi : isWire i = false) (h : i.WellFormed p = true) : decode p (encode p i) = .ok i := by
  cases i with
  | hostInit | hostRead | hostErase | hostChipErase => exact decode_header_only p (by decide) _ _
  | hostWrite addr wdata =>
    have hlen : wdata.length < 2 ^ 32 := of_decide_eq_true h
    exact decode_write_request p addr _ (by rw [BitVec.toNat_ofNat, Nat.mod_eq_of_lt hlen])
  | _ => cases hi

/-- R101, R107: the round trip, for both encodings. -/
theorem decode_encode (h : i.WellFormed p = true) : decode p (encode p i) = .ok i := by
  cases hi : isWire i with
  | true => exact decode_encode_wire hi h
  | false => exact decode_encode_host hi h

/-- A request that decodes is its nine header bytes and exactly the data bytes that the header asks for (R103). -/
theorem decode_request_ok {bytes : List Byte} (h : decode p (.request bytes) = .ok i) :
    ∃ op addr len data, bytes = requestHeader op addr len ++ data ∧ data.length = requestDataLength op len ∧
      decodeHeader op addr len data = .ok i := by
  simp only [decode] at h
  split at h <;> cases h
  next hr =>
    unfold decodeRequest at hr
    split at hr
    · next op a3 a2 a1 a0 l3 l2 l1 l0 data =>
      simp only at hr
      split at hr
      · cases hr
      · next hlong =>
        split at hr
        · next hd =>
          obtain ⟨rfl, hdrop⟩ := Prod.mk.inj (Except.ok.inj hr)
          have hle := List.drop_eq_nil_iff.mp hdrop
          rw [List.take_of_length_le hle] at hd
          refine ⟨op, _, _, data, ?_, Nat.le_antisymm hle (Nat.le_of_not_lt hlong), hd⟩
          rw [requestHeader, be4_ofBe4, be4_ofBe4]
          rfl
        · cases hr
    · cases hr

end

end Machine

end Sys2Proof
end

section
/-! SUPPORT. The segments of a wire command: writes and then at most one read, which drive and receive the window of its encoding
(R107, R150), the first of them beginning with an opcode of the map (R105, R118). -/

namespace Sys2Proof.Machine

/-- The segments of a window: the writes of `ws` in order, then the read of n bytes if there is one. -/
def writesThenRead (ws : List (List Byte)) (n : Nat) : List SegReq := ws.map .w ++ readUnlessZero n

theorem writeUnlessEmpty_eq (bytes : List Byte) :
    ∃ ws : List (List Byte), writeUnlessEmpty bytes = ws.map .w ∧ ws.flatten = bytes := by
  by_cases h : bytes = []
  · exact ⟨[], by simp [writeUnlessEmpty, h], h.symm⟩
  · exact ⟨[bytes], by simp [writeUnlessEmpty, h], by simp⟩

/-- The "segments" column of R107 against its frames: opcode first, writes before the read, and together the encoded window. -/
theorem segmentsOf_encode (p : Params) {i : Instr} (hi : isWire i = true) :
    ∃ op tl ws n, Opcode.wireOpcodes.contains op = true ∧ segmentsOf p i = writesThenRead ((op :: tl) :: ws) n ∧
      encode p i = .window ⟨op :: tl ++ ws.flatten, n⟩ := by
  cases i with
  | identification =>
    exact ⟨0x90, List.replicate p.idPlaceholders p.idPlaceholderValue, [], p.idRx, rfl, rfl,
      by rw [List.flatten_nil, List.append_nil]; rfl⟩
  | pageProgram a data =>
    obtain ⟨ws, hws, hflat⟩ := writeUnlessEmpty_eq data
    exact ⟨0x02, be3 a, ws, 0, rfl, by simp [segmentsOf, writesThenRead, hws, readUnlessZero], by rw [hflat]; rfl⟩
  | readData a n => exact ⟨0x03, be3 a, [], n, rfl, rfl, rfl⟩
  | fastRead a n =>
    obtain ⟨ws, hws, hflat⟩ := writeUnlessEmpty_eq (List.replicate p.fastReadDummy p.dummyValue)
    exact ⟨0x0B, be3 a, ws, n, rfl, by simp [segmentsOf, writesThenRead, hws], by rw [hflat]; rfl⟩
  | readStatusRegister1 | readStatusRegister2 => exact ⟨_, [], [], 1, rfl, rfl, rfl⟩
  | sectorErase a | block32Erase a | block64Erase a => exact ⟨_, be3 a, [], 0, rfl, rfl, rfl⟩
  | writeEnable | chipErase | enableReset | reset => exact ⟨_, [], [], 0, rfl, rfl, rfl⟩
  | hostInit | hostRead | hostWrite | hostErase | hostChipErase => cases hi

/-! What the executed segments drive and receive (R153, R154). -/

theorem windowOf_cons_w (bytes : List Byte) (ok : Bool) (gs : List Seg) :
    windowOf (.w bytes ok :: gs) = ⟨bytes ++ (windowOf gs).out, (windowOf gs).rxLen⟩ := by
  simp [windowOf, Seg.written, Seg.rxLen]

/-- Segments of which none fails drive all the writes and clock in all the bytes of the read, RX_FILL driven for each of them. -/
theorem runSegs_writesThenRead (fill : Byte) (ws : List (List Byte)) (n : Nat) (e : Env)
    (h : (runSegs (writesThenRead ws n) e).all Seg.ok = true) :
    windowOf (runSegs (writesThenRead ws n) e) = ⟨ws.flatten, n⟩ ∧
      (runSegs (writesThenRead ws n) e).flatMap (Seg.intended fill) = ws.flatten ++ List.replicate n fill := by
  induction ws generalizing e with
  | nil =>
    by_cases hn : n = 0
    · subst hn
      exact ⟨rfl, rfl⟩
    · simp [writesThenRead, readUnlessZero, hn, runSegs_cons, runSeg, segRead, windowOf, Seg.written, Seg.rxLen, Seg.intended]
  | cons bytes ws ih =>
    have hcons : writesThenRead (bytes :: ws) n = .w bytes :: writesThenRead ws n := rfl
    rw [hcons, runSegs_cons, List.all_cons, runSeg_ok, Bool.and_eq_true] at h
    obtain ⟨hok, hrest⟩ := h
    rw [if_pos hok] at hrest
    obtain ⟨hwindow, hdriven⟩ := ih _ hrest
    rw [hcons, runSegs_cons, if_pos hok]
    constructor
    · rw [runSeg, segWrite, windowOf_cons_w, hwindow, List.flatten_cons]
    · rw [List.flatMap_cons, hdriven, List.flatten_cons, List.append_assoc]
      rfl

/-! The opcodes of the trace (R119). -/

/-- The transaction of a wire command begins with its opcode, even if its first segment fails. -/
theorem opcodeKnown_segmentsOf (p : Params) {i : Instr} (hi : isWire i = true) (e : Env) :
    Event.opcodeKnown (.txn (runSegs (segmentsOf p i) e)) = true := by
  obtain ⟨op, tl, ws, n, hop, hsegs, -⟩ := segmentsOf_encode p hi
  rw [hsegs]
  exact hop

/-- The transactions of the trace carry opcodes of the map only. -/
def OpcodesKnown (s : State) : Prop := s.trace.all Event.opcodeKnown = true

section
variable {s t : State}

theorem OpcodesKnown.of_same (h : OpcodesKnown s) (hst : SamePorts s t) : OpcodesKnown t := by
  rw [OpcodesKnown, hst.trace]
  exact h

theorem OpcodesKnown.of_event {e : Event} (h : OpcodesKnown s) (htrace : t.trace = s.trace ++ [e]) (he : e.opcodeKnown = true) :
    OpcodesKnown t := by
  rw [OpcodesKnown, htrace, List.all_append, Bool.and_eq_true]
  exact ⟨h, by simpa using he⟩

theorem OpcodesKnown.exec {i : Instr} (h : OpcodesKnown s) (he : exec i s = .next t) : OpcodesKnown t := by
  cases hi : isWire i with
  | false => exact h.of_same (exec_host_samePorts hi he)
  | true =>
    obtain hend | ⟨-, rfl⟩ := WireEnd.of_exec hi he
    · have htxn : OpcodesKnown (transaction (segmentsOf s.params i) s).st := h.of_event rfl (opcodeKnown_segmentsOf _ hi _)
      obtain hsame | ⟨-, -, -, -, rfl⟩ := hend.samePorts
      · exact htxn.of_same hsame
      · exact htxn.of_event rfl rfl
    · exact h

/-- Every row of R25, and the internal call too, puts an opcode of the map on the bus or none. -/
theorem OpcodesKnown.phaseStep (h : OpcodesKnown s) (hst : PhaseStep s t) : OpcodesKnown t := by
  cases hst with
  | call _ _ _ he => exact OpcodesKnown.exec (s := { s with call := none }) h he
  | dispatch _ _ he | issue _ he => exact h.exec he
  | wait | reserved | chunk => exact h
  | accept | sleep | respond => exact h.of_event rfl rfl
  | unit => exact h.of_same (unitStep_samePorts s)
  | advance _ ha => exact h.of_same (advanceStep_samePorts ha)

end

end Sys2Proof.Machine
end

section
/-! SUPPORT. The operands that the engine assembles under its invariant lie in the ranges of the encodings (R115 to R117, R241, R262). -/

namespace Sys2Proof.Machine

/-- Dropping address bits keeps the offset in anything that divides the wire's address space (R115). -/
theorem wireAddr_mod {p : Params} {size : Nat} (h : size ∣ p.wireSpace) (cur : Word) :
    (wireAddr p cur).toNat % size = cur.toNat % size := by
  rw [wireAddr_toNat, Nat.mod_mod_of_dvd _ h]

/-- The payload of a chunk that the buffer still holds has the chunk's length (R242). -/
theorem payload_length {r : Regs} (h : r.idx.toNat + r.chunk.toNat ≤ r.wbuf.length) : (payload r).length = r.chunk.toNat := by
  rw [payload, List.length_take, List.length_drop]
  omega

/-- The erase command of a unit at a multiple of its size is well-formed (R178 to R180). -/
theorem eraseInstr_wellFormed {p : Params} {u : EraseUnit} {a : WireAddr} (h : a.toNat % u.size p = 0) :
    (eraseInstr u a).WellFormed p = true := by
  cases u <;> exact (unitAligned_iff ..).mpr h

section
variable {s : State}

/-- The chunk of WRITE in MUT: 1 to PAGE_SIZE bytes that stay in their page (R112, R116, R244). -/
theorem EngineInv.pageProgram_wellFormed (h : EngineInv s) (hp : s.phase = .mutate) (hop : s.regs.op = HostOp.write) :
    (Instr.pageProgram (wireAddr s.params s.regs.cur) (payload s.regs)).WellFormed s.params = true := by
  have hgeo := ((Params.wf_iff _).mp h.paramsOk).1
  obtain ⟨hmin, hmax, -, -, -, hdvd, -⟩ := (Params.geometryOk_iff _).mp hgeo
  obtain ⟨hrem, hsum, -, hsize⟩ := (writeLoopOk_iff s).mp h.writeLoop (by simp [inLoop, hp]) hop
  obtain ⟨hpos, hle, hpage, hleft⟩ := chunkSize_bounds hgeo s.regs.cur s.regs.rem hrem
  rw [← hsize.resolve_left (by simp [hp])] at hpos hle hpage hleft
  have hbuf := ((requestLatched_iff s).mp h.latched (by rw [hp]; rfl)).1 hop
  have hlen : (payload s.regs).length = s.regs.chunk.toNat := payload_length (by omega)
  refine Bool.and_eq_true_iff.mpr ⟨(payloadSizeOk_iff ..).mpr ?_, (fitsPage_iff ..).mpr ?_⟩
  · rw [hlen, hmin, hmax]
    exact ⟨hpos, hle⟩
  · rw [hlen, wireAddr_mod hdvd]
    exact hpage

/-- The unit of ERASE in MUT starts at a multiple of its size (R262). -/
theorem EngineInv.eraseInstr_wellFormed (h : EngineInv s) (hp : s.phase = .mutate) (hop : s.regs.op = HostOp.erase) :
    (eraseInstr s.regs.unit (wireAddr s.params s.regs.cur)).WellFormed s.params = true := by
  obtain ⟨-, -, -, -, hsel⟩ := (eraseLoopOk_iff s).mp h.eraseLoop (by simp [inLoop, hp]) hop
  obtain ⟨halign, -⟩ := (unitFits_iff ..).mp (selectUnit_fits (hsel.resolve_left (by simp [hp])))
  have hdvd := (s.regs.unit.size_dvd ((Params.wf_iff _).mp h.paramsOk).1).2
  exact Machine.eraseInstr_wellFormed ((wireAddr_mod hdvd _).trans halign)

/-- READ has at least one byte left before its transaction (R281). -/
theorem EngineInv.fastRead_wellFormed (h : EngineInv s) (hp : s.phase = .readTxn) (a : WireAddr) :
    (Instr.fastRead a s.regs.rem.toNat).WellFormed s.params = true := by
  obtain ⟨hrem, -⟩ := (readReady_iff s).mp h.readRange hp
  refine decide_eq_true (Nat.one_le_iff_ne_zero.mpr fun h0 => hrem (BitVec.eq_of_toNat_eq ?_))
  simpa using h0

theorem EngineInv.mutatingInstr_wellFormed {i : Instr} (h : EngineInv s) (hp : s.phase = .mutate)
    (hi : mutatingInstr s.params s.regs = some i) : i.WellFormed s.params = true := by
  unfold mutatingInstr at hi
  split_ifs at hi with hw he hc <;> cases hi
  · exact h.pageProgram_wellFormed hp hw
  · exact h.eraseInstr_wellFormed hp he
  · rfl

/-- Under the invariant the command of every phase is well-formed. -/
theorem EngineInv.phaseInstr_wellFormed {i : Instr} (h : EngineInv s) (hi : phaseInstr s = some i) :
    i.WellFormed s.params = true := by
  unfold phaseInstr at hi
  split at hi
  case h_7 hp => exact h.mutatingInstr_wellFormed hp hi
  case h_8 hp => cases hi; exact h.fastRead_wellFormed hp _
  case h_9 => cases hi
  all_goals cases hi; rfl

end

end Sys2Proof.Machine
end

section
open Sys2Proof Sys2Proof.Machine

/-- Settles O1: each frame format admits the bytes it is encoded as, and a request is its header and its data. -/
theorem decodeEncodeRoundTrip : Obligations.DecodeEncodeRoundTrip := fun _ _ => decode_encode

/-- Settles O2: a window's operands passed its frame's checks, and a WRITE's data has the length that a 32-bit field gives. -/
theorem decodedIsWellFormed : Obligations.DecodedIsWellFormed := by
  rintro p (bytes | w) i h
  · obtain ⟨op, addr, len, data, -, hlen, hd⟩ := decode_request_ok h
    obtain ⟨-, rfl⟩ | ⟨-, rfl⟩ | ⟨rfl, rfl⟩ | ⟨-, rfl⟩ | ⟨-, rfl⟩ := decodeHeader_ok hd
    case inr.inr.inl => exact decide_eq_true (hlen ▸ len.isLt)
    all_goals rfl
  · exact (encode_of_decode_window h).1

/-- Settles O3. -/
theorem windowEncodesBack : Obligations.WindowEncodesBack := fun _ _ _ h => (encode_of_decode_window h).2

/-- Settles O4: the header that was read is the header written, except where the encoder writes zeros (R140). -/
theorem requestEncodesBack : Obligations.RequestEncodesBack := by
  intro p
  refine ⟨fun bytes i h => ?_, fun _ _ => ⟨decode_header_only p (by decide) _ _, decode_header_only p (by decide) _ _⟩⟩
  obtain ⟨op, addr, len, data, rfl, hlen, hd⟩ := decode_request_ok h
  have hnil : op ≠ HostOp.write → data = [] := fun hop => List.eq_nil_of_length_eq_zero (hlen.trans (if_neg hop))
  obtain ⟨rfl, rfl⟩ | ⟨rfl, rfl⟩ | ⟨rfl, rfl⟩ | ⟨rfl, rfl⟩ | ⟨rfl, rfl⟩ := decodeHeader_ok hd
  · rw [hnil (by decide)]
    exact ⟨fun hinit => absurd rfl hinit, fun _ => rfl⟩
  · rw [hnil (by decide)]
    exact ⟨fun _ _ => rfl, nofun⟩
  · have hfield : BitVec.ofNat 32 data.length = len := by
      rw [hlen.trans (if_pos rfl), BitVec.ofNat_toNat, BitVec.setWidth_eq]
    refine ⟨fun _ _ => ?_, nofun⟩
    rw [encode, hfield]
  · rw [hnil (by decide)]
    exact ⟨fun _ _ => rfl, nofun⟩
  · rw [hnil (by decide)]
    exact ⟨fun _ hchip => absurd rfl hchip, fun _ => rfl⟩

/-- Settles O6: engine reset empties the trace, and every row of R25 adds transactions of wire commands only. -/
theorem onlyMapOpcodesOnTheBus : Obligations.OnlyMapOpcodesOnTheBus := by
  intro s t h hstep
  cases hr : s.env.resetIn with
  | true => rw [step_resetIn hr] at hstep; cases hstep; rfl
  | false => exact OpcodesKnown.phaseStep h (.of_step hr hstep)

/-- Settles O7: writes, then the read, and together the encoded window. -/
theorem segmentsFillTheEncodedWindow : Obligations.SegmentsFillTheEncodedWindow := by
  intro p i e hi _ hok
  obtain ⟨op, tl, ws, n, -, hsegs, henc⟩ := segmentsOf_encode p hi
  have hall := (runSegs_all_ok_iff _ _).mpr hok
  rw [drivenBytes_of_ok _ _ hall]
  rw [hsegs] at hall ⊢
  exact ⟨_, henc, runSegs_writesThenRead p.rxFill _ n e hall⟩

/-- Settles O13: the invariant makes each phase's command well-formed, and a well-formed command is read back. -/
theorem issuedCommandsDecode : Obligations.IssuedCommandsDecode :=
  fun _ _ h hi => have hwf := h.phaseInstr_wellFormed hi; ⟨hwf, decode_encode hwf⟩

/-- Settles O5: each word is computed, but for the WRITE request, whose data is any 300 bytes. -/
theorem specWordsDecode : Obligations.SpecWordsDecode := by
  unfold Obligations.SpecWordsDecode
  intro d
  refine ⟨by decide, ⟨by decide, by decide, by decide, fun data hlen => ?_, by decide⟩, by decide⟩
  exact decode_write_request Params.default 0 300 hlen

/-- Settles O9: the table by cases, and a response by its status and its cause. -/
theorem causeCodesAreTheTable : Obligations.CauseCodesAreTheTable := by
  refine ⟨by decide, fun c => by cases c <;> rfl, by decide, fun r => ?_⟩
  obtain ⟨status, cause, data⟩ := r
  refine ⟨?_, ?_, ?_, rfl⟩
  · simp [Response.bytes]; omega
  · cases status <;> rfl
  · cases cause <;> rfl

end

section
/-! SUPPORT. The host's port (R130, R131, R139): what IDLE makes of an offered request, which requests break the host's duty, and that
outside IDLE a step commutes with whatever is offered. -/

namespace Sys2Proof.Machine

/-! Acceptance and refusal at the port. -/

section
variable {s t : State}

theorem idleStep_accepts {r : Request} {rest : List Request} (hq : s.env.reqs = r :: rest)
    (hduty : requestDutyOk s.params r = true) (hdata : requestComplete r = true) : idleStep s = .next (accept r rest s) := by
  simp [idleStep, hq, hduty, hdata]

theorem idleStep_refuses {r : Request} {rest : List Request} (hq : s.env.reqs = r :: rest)
    (hduty : requestDutyOk s.params r = false) : idleStep s = .refused (.hostDuty r.addr r.len.toNat) := by
  simp [idleStep, hq, hduty]

/-- The three ways to break the host's duty (R139, D7). -/
theorem dutyOk_eq_false_iff (p : Params) (addr : Word) (len : Nat) : dutyOk p addr len = false ↔
    p.addrSpace < addr.toNat + len ∨ p.addrSpace ≤ addr.toNat ∨ p.lenSpace ≤ len := by
  rw [← Bool.not_eq_true, dutyOk_iff]
  omega

theorem exec_hostRead_refused {a l : Word} (h : dutyOk s.params a l.toNat = false) :
    exec (.hostRead a l) s = .refused (.hostDuty a l.toNat) := by
  simp [exec, execHostRead, h]

theorem exec_hostWrite_refused {a : Word} {d : List Byte} (h : dutyOk s.params a d.length = false) :
    exec (.hostWrite a d) s = .refused (.hostDuty a d.length) := by
  simp [exec, execHostWrite, h]

theorem exec_hostErase_refused {a l : Word} (h : dutyOk s.params a l.toNat = false) :
    exec (.hostErase a l) s = .refused (.hostDuty a l.toNat) := by
  simp [exec, execHostErase, h]

/-! An answer given at once. -/

/-- The codes 0x00 and 0x06 to 0xFF are none of the five of R102 (R120). -/
theorem known_eq_false_of_reserved {op : Byte} (h : op = 0x00 ∨ 0x06 ≤ op.toNat) : HostOp.known op = false := by
  by_contra hk
  simp only [HostOp.known, Bool.not_eq_false, Bool.or_eq_true, beq_iff_eq] at hk
  obtain (((rfl | rfl) | rfl) | rfl) | rfl := hk <;> exact absurd h (by decide)

theorem run_succ_of_next (k : Nat) (h : step s = .next t) : core.run (k + 1) s = core.run k t := by
  have hcore : core.step s = .next t := h
  simp only [Host.Core.run, hcore]

/-- A step that raises is answered by the next one, with no event but the `Respond` (R135, R308). -/
theorem run_two_of_raise {c : Cause} (hr : s.env.resetIn = false) (h : step s = .next (raise c s)) :
    core.run 2 s = .next (answeredAtOnce .err c s) :=
  have hresp : step (raise c s) = .next (answeredAtOnce .err c s) := step_resp hr rfl
  (run_succ_of_next 1 h).trans (run_succ_of_next 0 hresp)

end

/-! What is offered, and what the shared operations read of it: nothing. -/

/-- s with the requests l at the req port (R142). -/
def offer (l : List Request) (s : State) : State := { s with env := { s.env with reqs := l } }

/-- A transaction's result with the requests l at the req port. -/
def TxnResult.offer (l : List Request) (r : TxnResult) : TxnResult := { r with st := Machine.offer l r.st }

/-- An outcome with the requests l at the req port of its next state; a stop has none. -/
def offerNext (l : List Request) : Host.Outcome State Fault Refusal → Host.Outcome State Fault Refusal
  | .next s => .next (offer l s)
  | .fault f => .fault f
  | .refused f => .refused f

section
variable (l : List Request)

@[simp] theorem offerNext_next (s : State) : offerNext l (.next s) = .next (offer l s) := rfl
@[simp] theorem offer_params (s : State) : (offer l s).params = s.params := rfl
@[simp] theorem offer_phase (s : State) : (offer l s).phase = s.phase := rfl
@[simp] theorem offer_regs (s : State) : (offer l s).regs = s.regs := rfl
@[simp] theorem TxnResult.offer_st (r : TxnResult) : (r.offer l).st = Machine.offer l r.st := rfl

/-- The environment answers segments by its script and its counter alone (R155). -/
theorem runSegs_offer (qs : List SegReq) (e : Env) : runSegs qs { e with reqs := l } = runSegs qs e := by
  induction qs generalizing e with
  | nil => rfl
  | cons q qs ih =>
    have hseg : runSeg q { e with reqs := l } = runSeg q e := by cases q <;> rfl
    have hrest : runSegs qs (Env.skip { e with reqs := l } 1) = runSegs qs (e.skip 1) := ih (e.skip 1)
    rw [runSegs, runSegs, hseg, hrest]

theorem transaction_offer (qs : List SegReq) (s : State) : transaction qs (offer l s) = (transaction qs s).offer l := by
  have hsegs : runSegs qs (csAssert (offer l s)).env = runSegs qs (csAssert s).env := runSegs_offer l qs s.env
  simp only [transaction, hsegs]
  rfl

/-- An update of the state that commutes with offering l: what is offered plays no part in it. -/
def IgnoresOffer (k : State → State) : Prop := ∀ s, k (offer l s) = offer l (k s)

theorem ignoresOffer_id : IgnoresOffer l id := fun _ => rfl

theorem ignoresOffer_setPhase (p : Phase) : IgnoresOffer l (setPhase p) := fun _ => rfl

theorem ignoresOffer_respondOk (d : List Byte) : IgnoresOffer l (respondOk d) := fun _ => rfl

theorem ignoresOffer_startPoll (c : Cont) : IgnoresOffer l (startPoll c) := fun _ => rfl

variable {l}

theorem IgnoresOffer.continueIn {k : State → State} (hk : IgnoresOffer l k) (p : Phase) : IgnoresOffer l (continueIn p k) := by
  intro s
  by_cases hp : s.phase = p
  · rw [continueIn_here k hp, ← hk]; exact continueIn_here k hp
  · rw [continueIn_elsewhere k hp]; exact continueIn_elsewhere k hp

theorem IgnoresOffer.orBusFailure {k : State → State} (hk : IgnoresOffer l k) (r : TxnResult) :
    orBusFailure (r.offer l) k = offer l (orBusFailure r k) := by
  cases hok : r.ok with
  | true => rw [orBusFailure_of_ok k hok, ← hk]; exact orBusFailure_of_ok k hok
  | false => rw [orBusFailure_of_failed k hok]; exact orBusFailure_of_failed k hok

variable (l)

/-! The outcomes of the wire commands: `offer l` passes through each of their tests. -/

theorem mutated_offer (r : TxnResult) : mutated (r.offer l) = offer l (mutated r) :=
  ((ignoresOffer_setPhase l .advance).continueIn .mutate).orBusFailure r

theorem identifyOutcome_offer (r : TxnResult) : identifyOutcome (r.offer l) = offer l (identifyOutcome r) := by
  refine IgnoresOffer.orBusFailure (fun s => ?_) r
  rw [apply_ite (offer l), ← (ignoresOffer_startPoll l .rsten).continueIn .idTxn]
  rfl

theorem gateOutcome_offer (r : TxnResult) : gateOutcome (r.offer l) = offer l (gateOutcome r) := by
  refine IgnoresOffer.orBusFailure (fun s => ?_) r
  rw [apply_ite (offer l)]
  rfl

theorem pollOutcome_offer (r : TxnResult) : pollOutcome (r.offer l) = offer l (pollOutcome r) := by
  simp only [pollOutcome, apply_ite (offer l), TxnResult.offer_st, countPoll_params, offer_params]
  cases r.st.params.pollFailureMode <;> rfl

theorem statusOutcome_offer (r : TxnResult) : statusOutcome (r.offer l).st (r.offer l) = offer l (statusOutcome r.st r) := by
  unfold statusOutcome
  rw [TxnResult.offer_st, offer_phase]
  split
  · exact pollOutcome_offer l r
  · exact gateOutcome_offer l r
  · exact (ignoresOffer_id l).orBusFailure r

theorem wireOutcome_offer (i : Instr) (r : TxnResult) : wireOutcome i (r.offer l) = offer l (wireOutcome i r) := by
  cases i
  case identification => exact identifyOutcome_offer l r
  case pageProgram | sectorErase | block32Erase | block64Erase | chipErase => exact mutated_offer l r
  case readData | readStatusRegister2 => exact (ignoresOffer_id l).orBusFailure r
  case fastRead => exact ((ignoresOffer_respondOk l r.rx).continueIn .readTxn).orBusFailure r
  case readStatusRegister1 => exact statusOutcome_offer l r
  case writeEnable => exact ((ignoresOffer_setPhase l .welchk).continueIn .wren).orBusFailure r
  case enableReset => exact ((ignoresOffer_setPhase l .rst).continueIn .rsten).orBusFailure r
  case reset => exact ((ignoresOffer_respondOk l []).continueIn .rst).orBusFailure r
  case hostInit | hostRead | hostWrite | hostErase | hostChipErase => rfl

/-! The instructions and the phases. -/

theorem exec_wire_offer {i : Instr} (hi : isWire i = true) (s : State) : exec i (offer l s) = offerNext l (exec i s) := by
  by_cases hsize : ∃ a d, i = .pageProgram a d ∧ payloadSizeOk s.params d = false
  · obtain ⟨a, d, rfl, hd⟩ := hsize
    rw [exec_pageProgram_rejected hd]
    exact exec_pageProgram_rejected hd
  · have hok : ∀ a d, i = .pageProgram a d → payloadSizeOk s.params d = true :=
      fun a d hpd => by simpa using fun hd => hsize ⟨a, d, hpd, hd⟩
    rw [exec_wire hi hok, exec_wire hi (s := offer l s) hok, offer_params, transaction_offer, wireOutcome_offer]
    rfl

theorem exec_host_offer {i : Instr} (hi : isWire i = false) (s : State) : exec i (offer l s) = offerNext l (exec i s) := by
  cases i
  case hostInit | hostChipErase => rfl
  case hostRead => simp only [exec, execHostRead, apply_ite (offerNext l), offerNext_next, apply_ite (offer l)]; rfl
  case hostWrite => simp only [exec, execHostWrite, apply_ite (offerNext l), offerNext_next, apply_ite (offer l)]; rfl
  case hostErase => simp only [exec, execHostErase, apply_ite (offerNext l), offerNext_next, apply_ite (offer l)]; rfl
  all_goals cases hi

theorem ignoresOffer_unitStep : IgnoresOffer l unitStep := by
  intro s
  unfold unitStep
  rw [offer_params, offer_regs]
  split <;> rfl

theorem ignoresOffer_loopTo (p : Phase) : IgnoresOffer l (loopTo p) := by
  intro s
  unfold loopTo
  rw [apply_ite (offer l)]
  rfl

theorem advanceStep_offer (s : State) : advanceStep (offer l s) = offerNext l (advanceStep s) := by
  have hwrite : advanceWrite (offer l s) = offer l (advanceWrite s) := by
    unfold advanceWrite
    rw [← ignoresOffer_loopTo l .chunk]
    rfl
  have herase : advanceErase (offer l s) = offer l (advanceErase s) := by
    unfold advanceErase
    rw [← ignoresOffer_loopTo l .unit]
    rfl
  simp only [advanceStep, apply_ite (offerNext l), offerNext_next, hwrite, herase]
  rfl

variable {s : State}

theorem step_check_offer (hr : s.env.resetIn = false) (hp : s.phase = .check) : step (offer l s) = offerNext l (step s) := by
  cases hd : decode s.params (latchedWords s.regs) with
  | ok i =>
    rw [step_check hr hp hd, step_check (s := offer l s) hr hp hd]
    exact exec_host_offer l (isWire_of_decode_request hd) s
  | error e =>
    by_cases he : ∃ op, e = .reservedOp op
    · obtain ⟨op, rfl⟩ := he
      rw [step_check_reserved hr hp hd]
      exact step_check_reserved hr hp hd
    · rw [step_check_malformed hr hp hd (not_exists.mp he)]
      exact step_check_malformed hr hp hd (not_exists.mp he)

theorem step_issue_offer (hr : s.env.resetIn = false) (hp : s.phase.issues = true) : step (offer l s) = offerNext l (step s) := by
  have hsame : phaseInstr (offer l s) = phaseInstr s := rfl
  cases hi : phaseInstr s with
  | some i =>
    rw [step_issue hr hi, step_issue (s := offer l s) hr (hsame.trans hi)]
    exact exec_wire_offer l (issuedIn_of_phaseInstr hi).1 s
  | none =>
    rw [step_issue_none hr hp hi]
    exact step_issue_none hr hp (hsame.trans hi)

/-- Outside IDLE what is offered changes nothing in a step but itself (R131). -/
theorem step_offer (hidle : s.phase ≠ .idle) : step (offer l s) = offerNext l (step s) := by
  cases hr : s.env.resetIn with
  | true => rw [step_resetIn hr]; exact step_resetIn hr
  | false =>
    cases hp : s.phase
    case idle => exact absurd hp hidle
    case check => exact step_check_offer l hr hp
    case chunk => rw [step_chunk hr hp]; exact step_chunk hr hp
    case unit => rw [step_unit hr hp, step_unit (s := offer l s) hr hp, ignoresOffer_unitStep]; rfl
    case sleep => rw [step_sleep hr hp]; exact step_sleep hr hp
    case advance => rw [step_advance hr hp, step_advance (s := offer l s) hr hp, advanceStep_offer]
    case resp => rw [step_resp hr hp]; exact step_resp hr hp
    case halted => rw [step_halted hr hp]; exact step_halted hr hp
    all_goals exact step_issue_offer l hr (by rw [hp]; rfl)

/-- Outside IDLE a step leaves the requests on the port: offering them again would change nothing in it (R131). -/
theorem reqs_of_step {t : State} (hidle : s.phase ≠ .idle) (h : step s = .next t) : t.env.reqs = s.env.reqs := by
  have hcomm : step s = offerNext s.env.reqs (step s) := step_offer s.env.reqs hidle
  rw [h] at hcomm
  have ht : t = offer s.env.reqs t := Host.Outcome.next.inj hcomm
  rw [ht]
  rfl

end

end Sys2Proof.Machine
end

section
open Sys2Proof Sys2Proof.Machine

/-- Settles O14: IDLE accepts a request that keeps the duty and holds its data; elsewhere what is offered stays on the port. -/
theorem acceptanceOnlyInIdle : Obligations.AcceptanceOnlyInIdle := by
  refine ⟨fun s r rest hr hp hc hq hduty hdata => ?_, fun _ _ => reqs_of_step⟩
  rw [step_idle hr hp hc, idleStep_accepts hq hduty hdata]
  rfl

/-- Settles O15: outside IDLE a step commutes with offering any requests, and in HALTED it is the fault. -/
theorem heldRequestChangesNothing : Obligations.HeldRequestChangesNothing := by
  refine ⟨fun s l hidle => ?_, fun _ => step_halted⟩
  refine (step_offer l hidle).trans ?_
  cases step s <;> rfl

/-- Settles O17: each way to break the duty makes its check fail, at the port and in the three meanings it binds. -/
theorem hostDutyRefused : Obligations.HostDutyRefused := by
  refine ⟨fun s r rest hr hp hc hq hop hbreaks => ?port, fun s a l hbreaks => ?lengths, fun s a d hbreaks => ?data,
    fun p r hread hwrite herase => ?unbound⟩
  case port =>
    rw [step_idle hr hp hc]
    exact idleStep_refuses hq ((if_pos hop).trans ((dutyOk_eq_false_iff ..).mpr hbreaks))
  case lengths =>
    have hduty := (dutyOk_eq_false_iff s.params a l.toNat).mpr hbreaks
    exact ⟨exec_hostRead_refused hduty, exec_hostErase_refused hduty⟩
  case data => exact exec_hostWrite_refused ((dutyOk_eq_false_iff ..).mpr hbreaks)
  case unbound => exact if_neg (not_or.mpr ⟨hread, not_or.mpr ⟨hwrite, herase⟩⟩)

/-- Settles O33: the decoder refuses the code by name, CHECK raises, and RESP delivers. -/
theorem reservedOpAnswered : Obligations.ReservedOpAnswered := by
  refine ⟨rfl, fun s hr hp hop => ?_⟩
  have hdecode := decode_reserved_request s.params (known_eq_false_of_reserved hop) s.regs.reqAddr s.regs.reqLen s.regs.wbuf
  exact run_two_of_raise hr (step_check_reserved hr hp hdecode)

/-- Settles O42: the fields that `deliver` changes are the ones written out. -/
theorem responseStep : Obligations.ResponseStep := fun _ => step_resp

end

section
/-! SUPPORT. The framing of a window: each executed segment is the one asked for, the first failed one is the last (R153 to R161), and a
wire command whose window failed is a BUS_FAILURE (R163). -/

namespace Sys2Proof.Machine

/-- The bytes that an asked segment is to drive: its own, or RX_FILL for each byte to be received (R153, R154). -/
def SegReq.bytes (fill : Byte) : SegReq → List Byte
  | .w bytes => bytes
  | .r n => List.replicate n fill

@[simp] theorem runSeg_intended (fill : Byte) (q : SegReq) (e : Env) : (runSeg q e).intended fill = q.bytes fill := by
  cases q <;> rfl

/-! The executed segments. -/

section
variable {e : Env}

/-- The first segment is answered now, the ones after it from the next answer on. -/
theorem answersOk_succ_iff (n : Nat) : answersOk e (n + 1) ↔ e.okAt 0 = true ∧ answersOk (e.skip 1) n := by
  simp only [answersOk, Nat.forall_lt_succ_left, Env.skip_okAt, Nat.add_comm 1]

/-- The j-th executed segment is the j-th asked for, with the j-th answer from now on. -/
theorem runSegs_getElem? {qs : List SegReq} {j : Nat} (h : j < (runSegs qs e).length) :
    (runSegs qs e)[j]? = qs[j]?.map fun q => runSeg q (e.skip j) := by
  induction qs generalizing e j with
  | nil => cases h
  | cons q qs ih =>
    rw [runSegs_cons] at h ⊢
    cases j with
    | zero => simp
    | succ j =>
      by_cases hok : e.okAt 0 = true
      · rw [if_pos hok] at h ⊢
        have hrest := ih (Nat.lt_of_succ_lt_succ h)
        simpa [Nat.add_comm 1] using hrest
      · simp [hok] at h

/-- The j-th executed segment succeeded if its answer says so. -/
theorem runSegs_ok_at {qs : List SegReq} {j : Nat} (h : j < (runSegs qs e).length) :
    ((runSegs qs e)[j]?).map Seg.ok = some (e.okAt j) := by
  have hj : j < qs.length := Nat.lt_of_lt_of_le h (runSegs_length_le qs e)
  rw [runSegs_getElem? h, List.getElem?_eq_getElem hj]
  simp

/-- After segments that succeed, the window goes on with the others (R158, R160). -/
theorem runSegs_append {ps : List SegReq} (qs : List SegReq) (h : answersOk e ps.length) :
    runSegs (ps ++ qs) e = runSegs ps e ++ runSegs qs (e.skip ps.length) := by
  induction ps generalizing e with
  | nil => simp
  | cons p ps ih =>
    obtain ⟨hok, hrest⟩ := (answersOk_succ_iff ps.length).mp h
    simp [runSegs_cons, hok, ih hrest, Nat.add_comm 1]

/-- A first segment that fails is the only one (R159, R161). -/
theorem runSegs_cons_failed (q : SegReq) (qs : List SegReq) (h : e.okAt 0 = false) : runSegs (q :: qs) e = [runSeg q e] := by
  simp [runSegs_cons, h]

/-- A segment that fails after others that succeeded is the last (R161, D14). -/
theorem runSegs_append_failed {ps : List SegReq} (q : SegReq) (qs : List SegReq) (h : answersOk e ps.length)
    (hq : e.okAt ps.length = false) : runSegs (ps ++ q :: qs) e = runSegs ps e ++ [runSeg q (e.skip ps.length)] := by
  rw [runSegs_append _ h, runSegs_cons_failed q qs (by simpa using hq)]

/-- Segments that succeed were to drive the bytes asked for. -/
theorem runSegs_intended (fill : Byte) {qs : List SegReq} (h : answersOk e qs.length) :
    (runSegs qs e).flatMap (Seg.intended fill) = qs.flatMap (SegReq.bytes fill) := by
  induction qs generalizing e with
  | nil => rfl
  | cons q qs ih =>
    obtain ⟨hok, hrest⟩ := (answersOk_succ_iff qs.length).mp h
    simp [runSegs_cons, hok, ih hrest]

/-- A window without a failure runs all its segments and drives all their bytes. -/
theorem runSegs_of_answersOk (fill : Byte) {qs : List SegReq} (h : answersOk e qs.length) :
    (runSegs qs e).length = qs.length ∧ drivenBytes fill e.draws (runSegs qs e) = qs.flatMap (SegReq.bytes fill) := by
  have hall := (runSegs_all_ok_iff qs e).mpr h
  exact ⟨runSegs_length_of_ok hall, by rw [drivenBytes_of_ok _ _ hall, runSegs_intended fill h]⟩

/-- A window that fails drives all bytes of the segments before the failed one, and of that one some first bytes (R157). -/
theorem runSegs_of_failed (fill : Byte) {ps : List SegReq} (q : SegReq) (qs : List SegReq) (h : answersOk e ps.length)
    (hq : e.okAt ps.length = false) :
    (runSegs (ps ++ q :: qs) e).length = ps.length + 1 ∧
      ∃ m, drivenBytes fill e.draws (runSegs (ps ++ q :: qs) e) = ps.flatMap (SegReq.bytes fill) ++ (q.bytes fill).take m := by
  have hall := (runSegs_all_ok_iff ps e).mpr h
  rw [runSegs_append_failed q qs h hq]
  constructor
  · rw [List.length_append, runSegs_length_of_ok hall, List.length_singleton]
  · rw [drivenBytes_failed_last _ _ hall (by simpa using hq), runSegs_intended fill h, runSeg_intended]
    exact ⟨_, rfl⟩

end

/-! The transaction that fails. -/

section
variable {i : Instr} {s : State}

/-- A transaction leaves nothing but its window. -/
theorem transaction_st_eq_afterWindow (qs : List SegReq) (s : State) :
    (transaction qs s).st = afterWindow (runSegs qs s.env) s := rfl

/-- A wire command ends a failed transaction with BUS_FAILURE, but for the poll (R163, R302). -/
theorem WireEnd.eq_raise_of_failed {r : TxnResult} {t : State} (h : WireEnd i r t) (hok : r.ok = false)
    (hpoll : i = .readStatusRegister1 → r.st.phase ≠ .poll) : t = raise .busFailure r.st := by
  cases h
  case busFailure => rfl
  case pollHalts hi hp _ _ | pollFails hi hp _ _ => exact absurd hp (hpoll hi)
  all_goals exact absurd ‹r.ok = true› (Bool.eq_false_iff.mp hok)

/-- The answer of a wire command, but for the poll, to a transaction that fails. -/
theorem exec_wire_failed (hi : isWire i = true) (hsize : ∀ a p, i = .pageProgram a p → payloadSizeOk s.params p = true)
    (hpoll : i = .readStatusRegister1 → s.phase ≠ .poll) (hfail : ¬ answersOk s.env (segmentsOf s.params i).length) :
    exec i s = .next (ending .err .busFailure [] (afterWindow (runSegs (segmentsOf s.params i) s.env) s)) := by
  have hok : (transaction (segmentsOf s.params i) s).ok = false :=
    Bool.eq_false_iff.mpr fun h => hfail ((runSegs_all_ok_iff ..).mp h)
  rw [exec_wire hi hsize, (WireEnd.of_wireOutcome hi _).eq_raise_of_failed hok hpoll, transaction_st_eq_afterWindow]
  rfl

/-- A failed header is the only segment of the window (R159). -/
theorem runSegs_header_failed (op : Byte) (a : WireAddr) (p : List Byte) (h : s.env.okAt 0 = false) :
    runSegs (.w (op :: be3 a) :: writeUnlessEmpty p) s.env = [.w (op :: be3 a) false] := by
  rw [runSegs_cons_failed _ _ h, runSeg, segWrite, h]

end

end Sys2Proof.Machine
end

section
open Sys2Proof Sys2Proof.Machine

/-- Settles O28: the window is cut at the segment that fails; the segments before it have succeeded. -/
theorem firstFailedSegmentEndsTheWindow : Obligations.FirstFailedSegmentEndsTheWindow := by
  intro qs e fill bytesOf
  have hbytes : bytesOf = SegReq.bytes fill := funext fun q => by cases q <;> rfl
  rw [hbytes]
  refine ⟨fun j hj => ⟨fun bytes hq => ?write, fun n hq => ?read⟩, fun k q hq hbefore hfail => ?failed,
    runSegs_of_answersOk fill⟩
  case write | read => rw [runSegs_getElem? hj, hq]; simp [runSeg, segWrite, segRead]
  case failed =>
    obtain ⟨hk, rfl⟩ := List.getElem?_eq_some_iff.mp hq
    have hcut : qs = qs.take k ++ qs[k] :: qs.drop (k + 1) := by rw [List.getElem_cons_drop, List.take_append_drop]
    have htake : (qs.take k).length = k := List.length_take_of_le hk.le
    have hwindow := runSegs_of_failed (e := e) fill (ps := qs.take k) qs[k] (qs.drop (k + 1)) (by rwa [htake])
      (by rwa [htake])
    rw [← hcut, htake] at hwindow
    obtain ⟨hlen, hdriven⟩ := hwindow
    have hok : ∀ j ≤ k, ((runSegs qs e)[j]?).map Seg.ok = some (e.okAt j) := fun j hj => runSegs_ok_at (by omega)
    exact ⟨hlen, fun j hj => by rw [hok j hj.le, hbefore j hj], by rw [hok k le_rfl, hfail], hdriven⟩

/-- Settles O29: of the window of a failed header only the header is there; PageProgram is a wire command whose transaction failed. -/
theorem failedHeaderSkipsPayload : Obligations.FailedHeaderSkipsPayload := by
  intro s op a p h
  refine ⟨?ok, ?window, ?driven, fun hmin hmax => ?answer⟩
  case ok => rw [transmit, transaction_ok, runSegs_header_failed op a p h]; rfl
  case window => rw [transmit, transaction_st_eq_afterWindow, runSegs_header_failed op a p h]; rfl
  case driven =>
    rw [transmit, transaction_st_dataOut, runSegs_header_failed op a p h]
    exact ⟨_, List.append_nil _⟩
  case answer =>
    have hsize : ∀ b d, Instr.pageProgram a p = .pageProgram b d → payloadSizeOk s.params d = true := by
      rintro _ _ ⟨⟩
      exact (payloadSizeOk_iff s.params p).mpr ⟨hmin, hmax⟩
    have hfail : ¬ answersOk s.env (segmentsOf s.params (.pageProgram a p)).length := fun hall =>
      Bool.false_ne_true (h.symm.trans (hall 0 (Nat.succ_pos _)))
    rw [exec_wire_failed rfl hsize nofun hfail, segmentsOf, runSegs_header_failed 0x02 a p h]
    rfl

/-- Settles O30: every end of a wire command but the poll's is BUS_FAILURE once its transaction failed. -/
theorem failedTransactionIsBusFailure : Obligations.FailedTransactionIsBusFailure := fun _ _ => exec_wire_failed

end

section
/-! SUPPORT. The window that succeeds: writes, or writes and then one read, each with success, and what a wire command makes of it (R150,
R153, R154, R163). -/

namespace Sys2Proof.Machine

section
variable {i : Instr} {s : State} {ws : List (List Byte)} {n : Nat}

/-- Write segments that all succeed (R153). -/
theorem runSegs_writes {e : Env} (h : answersOk e ws.length) : runSegs (ws.map .w) e = ws.map (Seg.w · true) := by
  induction ws generalizing e with
  | nil => rfl
  | cons bytes ws ih =>
    obtain ⟨hok, hrest⟩ := (answersOk_succ_iff ws.length).mp h
    simp [runSegs_cons, runSeg, segWrite, hok, ih hrest]

/-- Write segments and then a read that all succeed; the read takes the answer after theirs (R154). -/
theorem runSegs_writes_read {e : Env} (h : answersOk e (ws.length + 1)) :
    runSegs (ws.map .w ++ [.r n]) e = ws.map (Seg.w · true) ++ [.r n (e.rxAt ws.length n) true] := by
  have hwrites : answersOk e ws.length := fun k hk => h k (Nat.lt_succ_of_lt hk)
  have hread : e.okAt ws.length = true := h _ (Nat.lt_succ_self _)
  rw [runSegs_append _ (by simpa using hwrites), runSegs_writes hwrites]
  simp [runSegs_cons, runSeg, segRead, hread]

/-- A wire command whose segments were executed as `gs`, each with success, goes on with the bytes received (R163). -/
theorem exec_wire_succeeded {gs : List Seg} (hi : isWire i = true)
    (hsize : ∀ a p, i = .pageProgram a p → payloadSizeOk s.params p = true)
    (hruns : runSegs (segmentsOf s.params i) s.env = gs) (hok : gs.all Seg.ok = true) :
    exec i s = .next (wireOutcome i ⟨true, gs.flatMap Seg.received, afterWindow gs s⟩) := by
  subst hruns
  rw [exec_wire hi hsize, ← hok]
  rfl

/-- The answer of a wire command that only writes, on a bus that does not fail. -/
theorem exec_wire_writes (ws : List (List Byte)) (hi : isWire i = true)
    (hsize : ∀ a p, i = .pageProgram a p → payloadSizeOk s.params p = true)
    (hsegs : segmentsOf s.params i = ws.map .w) (h : answersOk s.env ws.length) :
    exec i s = .next (wireOutcome i ⟨true, [], afterWindow (ws.map (Seg.w · true)) s⟩) := by
  have hrx : (ws.map (Seg.w · true)).flatMap Seg.received = [] := by simp [List.flatMap_map, Seg.received]
  rw [exec_wire_succeeded hi hsize (hsegs ▸ runSegs_writes h) (by simp [Seg.ok]), hrx]

/-- The answer of a wire command that ends with a read, on a bus that does not fail: its result is what the read received. -/
theorem exec_wire_read (ws : List (List Byte)) (hi : isWire i = true)
    (hsize : ∀ a p, i = .pageProgram a p → payloadSizeOk s.params p = true)
    (hsegs : segmentsOf s.params i = ws.map .w ++ [.r n]) (h : answersOk s.env (ws.length + 1)) :
    exec i s = .next (wireOutcome i ⟨true, s.env.rxAt ws.length n,
      afterWindow (ws.map (Seg.w · true) ++ [.r n (s.env.rxAt ws.length n) true]) s⟩) := by
  have hrx : (ws.map (Seg.w · true) ++ [Seg.r n (s.env.rxAt ws.length n) true]).flatMap Seg.received = s.env.rxAt ws.length n := by
    simp [List.flatMap_map, Seg.received]
  rw [exec_wire_succeeded hi hsize (hsegs ▸ runSegs_writes_read h) (by simp [Seg.ok]), hrx]

/-! What Identification and FastRead add to that: the check of the two bytes, and the dummy segment. -/

/-- The identification that reads the two expected bytes (R220). -/
theorem identifyOutcome_expected (t : State) :
    identifyOutcome ⟨true, [t.params.expectedMfr, t.params.expectedDev], t⟩ =
      if t.phase = .idTxn then { t with phase := .poll, regs := { t.regs with polls := 0, cont := .rsten } } else t := by
  rw [identifyOutcome, orBusFailure_of_ok _ rfl, if_pos rfl]
  rfl

/-- The dummy segment of FastRead is left out when it has no byte (R160). -/
theorem segmentsOf_fastRead (p : Params) (a : WireAddr) (hn : n ≠ 0) :
    segmentsOf p (.fastRead a n) = (if p.fastReadDummy = 0 then [0x0B :: be3 a]
      else [0x0B :: be3 a, List.replicate p.fastReadDummy p.dummyValue]).map .w ++ [.r n] := by
  by_cases hd : p.fastReadDummy = 0 <;> simp [segmentsOf, writeUnlessEmpty, readUnlessZero, hn, hd]

end

end Sys2Proof.Machine
end

section
open Sys2Proof Sys2Proof.Machine

/-- Settles O18: the expected answer is two bytes long, so two bytes were asked for, and the check of R220 passes. -/
theorem identificationPasses : Obligations.IdentificationPasses := by
  intro s h hrx
  have hidRx : s.params.idRx = 2 := by rw [← Env.rxAt_length s.env 1 s.params.idRx, hrx]; rfl
  have hsegs : segmentsOf s.params .identification =
      [0x90 :: List.replicate s.params.idPlaceholders s.params.idPlaceholderValue].map .w ++ [.r 2] := by
    rw [segmentsOf, hidRx]; rfl
  have hexec := exec_wire_read (i := .identification) _ rfl nofun hsegs h
  rw [hidRx] at hrx
  rw [List.length_singleton, hrx] at hexec
  exact hexec.trans (congrArg Host.Outcome.next (identifyOutcome_expected (afterWindow _ s)))

/-- Settles O20: each command is one write of its opcode, and its outcome is that of its phase. -/
theorem singleByteCommands : Obligations.SingleByteCommands := fun _ h =>
  ⟨exec_wire_writes [[0x06]] rfl nofun rfl h, exec_wire_writes [[0x66]] rfl nofun rfl h,
    exec_wire_writes [[0x99]] rfl nofun rfl h, exec_wire_writes [[0xC7]] rfl nofun rfl h⟩

/-- Settles O21: each erase is one write of its opcode and the address, and its outcome is that of MUT. -/
theorem eraseCommands : Obligations.EraseCommands := fun _ a h =>
  ⟨exec_wire_writes [0x20 :: be3 a] rfl nofun rfl h, exec_wire_writes [0x52 :: be3 a] rfl nofun rfl h,
    exec_wire_writes [0xD8 :: be3 a] rfl nofun rfl h⟩

/-- Settles O22: the size check passes, and a payload that is not empty has its own segment. -/
theorem pageProgramCommand : Obligations.PageProgramCommand := by
  intro s a p hpos hmin hmax h
  have hsize : ∀ b d, Instr.pageProgram a p = .pageProgram b d → payloadSizeOk s.params d = true := by
    rintro _ _ ⟨⟩
    exact (payloadSizeOk_iff s.params p).mpr ⟨hmin, hmax⟩
  have hsegs : segmentsOf s.params (.pageProgram a p) = [0x02 :: be3 a, p].map .w := by
    rw [segmentsOf, writeUnlessEmpty, if_neg (List.ne_nil_of_length_pos hpos)]; rfl
  exact exec_wire_writes _ rfl hsize hsegs h

/-- Settles O24: both are one write and one read, and the call returns in every phase. -/
theorem neverIssuedCommands : Obligations.NeverIssuedCommands := by
  intro s h
  refine ⟨fun a n hn => ?readData, exec_wire_read [[0x35]] rfl nofun rfl h⟩
  have hsegs : segmentsOf s.params (.readData a n) = [0x03 :: be3 a].map .w ++ [.r n] := by
    rw [segmentsOf, readUnlessZero, if_neg (Nat.one_le_iff_ne_zero.mp hn)]; rfl
  exact exec_wire_read (i := .readData a n) _ rfl nofun hsegs h

/-- Settles O25: the read comes after the header and, unless it is empty, the dummy segment, and its bytes are the response. -/
theorem fastReadCommand : Obligations.FastReadCommand := by
  intro s a n hn header writes rx h
  have hsegs : segmentsOf s.params (.fastRead a n) = writes.map .w ++ [.r n] :=
    segmentsOf_fastRead s.params a (Nat.one_le_iff_ne_zero.mp hn)
  exact ⟨Env.rxAt_length .., exec_wire_read (i := .fastRead a n) writes rfl nofun hsegs h⟩

end

section
/-! SUPPORT. The status read (R175, R200): its window as it succeeds and as it fails, and what the busy wait and the gate make of its
byte (R203 to R212). -/

namespace Sys2Proof.Machine

/-! What the busy wait and the gate do with the result of a status read (R25). -/

section
variable {b : Byte} {rx : List Byte} {t : State}

theorem pollOutcome_ready (h : b.getLsbD 0 = false) :
    pollOutcome ⟨true, [b], t⟩ = setPhase (contPhase t.regs.cont) (countPoll t) := by
  have hbusy : busy (statusByte [b]) = false := h
  simp [pollOutcome, hbusy]

/-- The bound is compared with the count that this poll is already in (R205). -/
theorem pollOutcome_busy (h : b.getLsbD 0 = true) :
    pollOutcome ⟨true, [b], t⟩ =
      if t.params.maxPolls = some (t.regs.polls + 1) then raise .timeout (countPoll t) else setPhase .sleep (countPoll t) := by
  have hbusy : busy (statusByte [b]) = true := h
  simp [pollOutcome, hbusy, boundReached]

theorem pollOutcome_failed_halt (h : t.params.pollFailureMode = .halt) :
    pollOutcome ⟨false, rx, t⟩ = halt (countPoll t) := by
  simp [pollOutcome, h]

theorem pollOutcome_failed_error (h : t.params.pollFailureMode = .error) :
    pollOutcome ⟨false, rx, t⟩ = raise .busFailure (countPoll t) := by
  simp [pollOutcome, h]

theorem gateOutcome_passed (h : b.getLsbD 1 = true) : gateOutcome ⟨true, [b], t⟩ = setPhase .mutate t := by
  have hwel : wel (statusByte [b]) = true := h
  rw [gateOutcome, orBusFailure_of_ok _ rfl, if_pos hwel]

theorem gateOutcome_closed (h : b.getLsbD 1 = false) : gateOutcome ⟨true, [b], t⟩ = raise .welNotSet t := by
  have hwel : ¬ wel (statusByte [b]) = true := Bool.eq_false_iff.mp h
  rw [gateOutcome, orBusFailure_of_ok _ rfl, if_neg hwel]

theorem statusOutcome_poll {s : State} (r : TxnResult) (h : s.phase = .poll) : statusOutcome s r = pollOutcome r := by
  rw [statusOutcome, h]

theorem statusOutcome_welchk {s : State} (r : TxnResult) (h : s.phase = .welchk) : statusOutcome s r = gateOutcome r := by
  rw [statusOutcome, h]

end

/-! The window of a status read: the opcode, then one byte in. -/

/-- s after a status read that was answered with b. -/
def afterStatusRead (b : Byte) (s : State) : State := afterWindow [.w [0x05] true, .r 1 [b] true] s

/-- The segments of a status read that fails: the opcode alone, or the opcode and the read that fails (R161). -/
def failedStatusSegs (e : Env) (b : Byte) : List Seg :=
  if e.okAt 0 then [.w [0x05] true, .r 1 [b] false] else [.w [0x05] false]

section
variable {s : State} {b : Byte}

theorem runSegs_status_failed {e : Env} (hrx : e.rxAt 1 1 = [b]) (h : ¬ answersOk e 2) :
    runSegs [.w [0x05], .r 1] e = failedStatusSegs e b := by
  by_cases h0 : e.okAt 0 = true
  · rw [answersOk_succ_iff, answersOk_succ_iff] at h
    have h1 : e.okAt 1 = false := by simpa [answersOk, h0] using h
    simp [failedStatusSegs, runSegs_cons, runSeg, segWrite, segRead, h0, h1, hrx]
  · simp [failedStatusSegs, runSegs_cons, runSeg, segWrite, h0]

/-- A status read on a bus that does not fail gives its reader the byte. -/
theorem exec_status_ok (hrx : s.env.rxAt 1 1 = [b]) (h : answersOk s.env 2) :
    exec .readStatusRegister1 s = .next (statusOutcome s ⟨true, [b], afterStatusRead b s⟩) := by
  have hexec := exec_wire_read (i := .readStatusRegister1) (n := 1) [[0x05]] rfl nofun rfl h
  rw [List.length_singleton, hrx] at hexec
  exact hexec

/-! The poll (R203): each outcome but a failure, then the failure. -/

theorem exec_poll_ready (hp : s.phase = .poll) (hrx : s.env.rxAt 1 1 = [b]) (h : answersOk s.env 2) (hb : b.getLsbD 0 = false) :
    exec .readStatusRegister1 s = .next (setPhase (contPhase s.regs.cont) (countPoll (afterStatusRead b s))) := by
  rw [exec_status_ok hrx h, statusOutcome_poll _ hp, pollOutcome_ready hb]
  rfl

theorem exec_poll_timeout (hp : s.phase = .poll) (hrx : s.env.rxAt 1 1 = [b]) (h : answersOk s.env 2) (hb : b.getLsbD 0 = true)
    (hn : s.params.maxPolls = some (s.regs.polls + 1)) :
    exec .readStatusRegister1 s = .next (raise .timeout (countPoll (afterStatusRead b s))) := by
  rw [exec_status_ok hrx h, statusOutcome_poll _ hp, pollOutcome_busy hb, if_pos (by exact hn)]

theorem exec_poll_sleep (hp : s.phase = .poll) (hrx : s.env.rxAt 1 1 = [b]) (h : answersOk s.env 2) (hb : b.getLsbD 0 = true)
    (hn : s.params.maxPolls ≠ some (s.regs.polls + 1)) :
    exec .readStatusRegister1 s = .next (setPhase .sleep (countPoll (afterStatusRead b s))) := by
  rw [exec_status_ok hrx h, statusOutcome_poll _ hp, pollOutcome_busy hb, if_neg (by exact hn)]

/-- A failed poll is counted; what it received does not matter (R206 to R208). -/
theorem exec_poll_failed (hp : s.phase = .poll) (hrx : s.env.rxAt 1 1 = [b]) (h : ¬ answersOk s.env 2) :
    ∃ rx, exec .readStatusRegister1 s = .next (pollOutcome ⟨false, rx, afterWindow (failedStatusSegs s.env b) s⟩) := by
  have hok : (runSegs [.w [0x05], .r 1] s.env).all Seg.ok = false :=
    Bool.eq_false_iff.mpr fun hall => h ((runSegs_all_ok_iff ..).mp hall)
  refine ⟨(runSegs [.w [0x05], .r 1] s.env).flatMap Seg.received, ?_⟩
  rw [exec_wire (i := .readStatusRegister1) rfl nofun, ← hok, ← runSegs_status_failed hrx h]
  exact congrArg Host.Outcome.next (statusOutcome_poll _ hp)

end

end Sys2Proof.Machine
end

section
open Sys2Proof Sys2Proof.Machine

/-- Settles O26: the four ends of a poll, of which the failed one is split by POLL_FAILURE_MODE. -/
theorem pollOutcomes : Obligations.PollOutcomes := by
  intro s hp b hrx counted t
  refine ⟨fun hok hb => ?ready, exec_poll_timeout hp hrx, exec_poll_sleep hp hrx, fun hfail => ?failed⟩
  case ready =>
    rw [exec_poll_ready hp hrx hok hb]
    cases hc : s.regs.cont <;> rfl
  case failed =>
    obtain ⟨rx, hexec⟩ := exec_poll_failed hp hrx hfail
    refine ⟨fun hmode => hexec.trans ?halts, fun hmode => hexec.trans ?raises⟩
    case halts =>
      rw [pollOutcome_failed_halt (by exact hmode), halt, record, countPoll_trace, afterWindow, List.append_assoc]
      rfl
    case raises =>
      rw [pollOutcome_failed_error (by exact hmode)]
      rfl

/-- Settles O27: the gate reads bit 1 of the byte; its failed read is that of any wire command but the poll. -/
theorem gateOutcomes : Obligations.GateOutcomes := by
  intro s hp b hrx t
  refine ⟨fun hok hb => ?passed, fun hok hb => ?closed, fun hfail => ?failed⟩
  case passed =>
    rw [exec_status_ok hrx hok, statusOutcome_welchk _ hp, gateOutcome_passed hb]
    rfl
  case closed =>
    rw [exec_status_ok hrx hok, statusOutcome_welchk _ hp, gateOutcome_closed hb]
    rfl
  case failed =>
    rw [exec_wire_failed (i := .readStatusRegister1) rfl nofun (fun _ => by simp [hp]) hfail, segmentsOf,
      runSegs_status_failed hrx hfail]
    rfl

/-- Settles O41: `sleepStep` is that event and that phase. -/
theorem sleepStep : Obligations.SleepStep := fun _ => step_sleep

end

section
/-! SUPPORT. The busy wait as a run (R203 to R206): a poll and a `Sleep` for each byte with BUSY = 1, by induction over the bytes. -/

namespace Sys2Proof.Machine

section
variable {s : State} {b : Byte} {bs : List Byte} {rest : List SegAnswer}

/-- A script that answers the next status read with b. -/
theorem status_answered (h : s.env.answers = statusScript [b] ++ rest) : s.env.rxAt 1 1 = [b] ∧ answersOk s.env 2 := by
  have hok : s.env.okAt 0 = true ∧ s.env.okAt 1 = true := by simp [Env.okAt, h, statusScript]
  refine ⟨?_, (answersOk_succ_iff 1).mpr ⟨hok.1, (answersOk_succ_iff 0).mpr ⟨by simpa using hok.2, nofun⟩⟩⟩
  simp [Env.rxAt, h, statusScript, fillRx_full]

/-- s after polls that read the bytes of bs, a `Sleep` after each; `rest` is what is still scripted. -/
def afterBusyPolls (bs : List Byte) (rest : List SegAnswer) (s : State) : State :=
  { s with
    regs := { s.regs with polls := s.regs.polls + bs.length }
    csN := if bs = [] then s.csN else true
    dataOut := if bs = [] then s.dataOut else [0x05, s.params.rxFill]
    trace := s.trace ++ busyPolls bs
    env := { s.env with answers := rest, draws := s.env.draws + 2 * bs.length } }

theorem afterBusyPolls_nil (h : s.env.answers = rest) : afterBusyPolls [] rest s = s := by
  subst h
  simp [afterBusyPolls, busyPolls]

theorem afterBusyPolls_cons (b : Byte) (bs : List Byte) (mid rest : List SegAnswer) (s : State) :
    afterBusyPolls bs rest (afterBusyPolls [b] mid s) = afterBusyPolls (b :: bs) rest s := by
  cases bs <;> simp [afterBusyPolls, busyPolls, Nat.mul_add, Nat.add_assoc, Nat.add_comm 1, Nat.add_comm 2]

/-- The window of a status read uses up the two answers it is scripted with. -/
theorem afterStatusRead_scripted (h : s.env.answers = statusScript [b] ++ rest) :
    afterStatusRead b s =
      { s with csN := true, dataOut := [0x05, s.params.rxFill], trace := s.trace ++ [statusTxn b]
               env := { s.env with answers := rest, draws := s.env.draws + 2 } } := by
  simp [afterStatusRead, afterWindow, Env.skip, h, statusScript, statusTxn, drivenBytes, Seg.driven, Seg.ok, Seg.intended,
    Opcode.readStatusRegister1]

theorem step_poll (hr : s.env.resetIn = false) (hp : s.phase = .poll) : step s = exec .readStatusRegister1 s :=
  step_issue hr (by rw [phaseInstr, hp])

/-- A busy poll below the bound and the `Sleep` after it (R203, R204). -/
theorem run_busyPoll (k : Nat) (hr : s.env.resetIn = false) (hp : s.phase = .poll) (hb : b.getLsbD 0 = true)
    (hn : s.params.maxPolls ≠ some (s.regs.polls + 1)) (h : s.env.answers = statusScript [b] ++ rest) :
    core.run (k + 2) s = core.run k (afterBusyPolls [b] rest s) := by
  obtain ⟨hrx, hok⟩ := status_answered h
  have hpoll := (step_poll hr hp).trans (exec_poll_sleep hp hrx hok hb hn)
  have hsleep : step (setPhase .sleep (countPoll (afterStatusRead b s))) = .next (afterBusyPolls [b] rest s) := by
    rw [step_sleep (by exact hr) rfl, afterStatusRead_scripted h]
    simp [sleepStep, setPhase, record, countPoll, afterBusyPolls, busyPolls, hp]
  exact (run_succ_of_next (k + 1) hpoll).trans (run_succ_of_next k hsleep)

/-- As long as the bound is not reached, the wait goes on through every byte with BUSY = 1. -/
theorem run_busyPolls (k : Nat) (hr : s.env.resetIn = false) (hp : s.phase = .poll) (hbs : ∀ x ∈ bs, x.getLsbD 0 = true)
    (hn : ∀ n, s.params.maxPolls = some n → s.regs.polls + bs.length < n) (h : s.env.answers = statusScript bs ++ rest) :
    core.run (2 * bs.length + k) s = core.run k (afterBusyPolls bs rest s) := by
  induction bs generalizing s with
  | nil =>
    have hsame : afterBusyPolls [] rest s = s := afterBusyPolls_nil h
    rw [hsame, List.length_nil, Nat.mul_zero, Nat.zero_add]
  | cons b bs ih =>
    have hbelow : s.params.maxPolls ≠ some (s.regs.polls + 1) := fun hmax => absurd (hn _ hmax) (by simp)
    have hrest : ∀ n, s.params.maxPolls = some n → s.regs.polls + 1 + bs.length < n := fun n hmax => by
      have hlt := hn n hmax
      rw [List.length_cons] at hlt
      omega
    have hsteps : 2 * (b :: bs).length + k = 2 * bs.length + k + 2 := by rw [List.length_cons]; omega
    rw [hsteps, run_busyPoll _ hr hp (hbs b List.mem_cons_self) hbelow h,
      ← afterBusyPolls_cons b bs (statusScript bs ++ rest)]
    exact ih hr hp (fun x hx => hbs x (List.mem_cons_of_mem b hx)) hrest rfl

/-- The wait ends with the poll after the busy ones, with no `Sleep` after it. -/
theorem run_busyPolls_last {t : State} (hr : s.env.resetIn = false) (hp : s.phase = .poll) (hbs : ∀ x ∈ bs, x.getLsbD 0 = true)
    (hn : ∀ n, s.params.maxPolls = some n → s.regs.polls + bs.length < n)
    (h : s.env.answers = statusScript (bs ++ [b]) ++ rest)
    (hlast : exec .readStatusRegister1 (afterBusyPolls bs (statusScript [b] ++ rest) s) = .next t) :
    core.run (2 * bs.length + 1) s = .next t := by
  have hscript : s.env.answers = statusScript bs ++ (statusScript [b] ++ rest) := by simp [h, statusScript]
  rw [run_busyPolls 1 hr hp hbs hn hscript]
  exact run_succ_of_next 0 ((step_poll (s := afterBusyPolls bs _ s) hr hp).trans hlast)

end

end Sys2Proof.Machine
end

section
open Sys2Proof Sys2Proof.Machine

/-- Settles O55: without a bound the wait goes on through every busy byte, and the ready poll goes to `cont`. -/
theorem busyWaitPollsUntilReady : Obligations.BusyWaitPollsUntilReady := by
  intro bs s rest hr hp hmax hbs hcs
  have hn : ∀ n, s.params.maxPolls = some n → s.regs.polls + bs.length < n := by simp [hmax]
  refine ⟨fun h => ?waits, fun b hb h => ?ends⟩
  case waits =>
    refine (run_busyPolls 0 hr hp hbs hn h).trans ?_
    simp [afterBusyPolls, hcs, Host.Core.run]
  case ends =>
    obtain ⟨hrx, hok⟩ := status_answered (s := afterBusyPolls bs (statusScript [b] ++ rest) s) rfl
    refine (run_busyPolls_last hr hp hbs hn h (exec_poll_ready hp hrx hok hb)).trans ?_
    rw [afterStatusRead_scripted rfl]
    cases hc : s.regs.cont <;> simp [setPhase, countPoll, afterBusyPolls, hc, contPhase, hcs]

/-- Settles O56: the busy polls before the last stay below the bound, which the last one reaches. -/
theorem busyWaitTimesOut : Obligations.BusyWaitTimesOut := by
  intro bs b s rest hr hp h0 hmax hbs hb h
  have hn : ∀ n, s.params.maxPolls = some n → s.regs.polls + bs.length < n := by simp [hmax, h0]
  have hbound : s.params.maxPolls = some (s.regs.polls + bs.length + 1) := by simp [hmax, h0]
  obtain ⟨hrx, hok⟩ := status_answered (s := afterBusyPolls bs (statusScript [b] ++ rest) s) rfl
  refine ⟨_, run_busyPolls_last hr hp hbs hn h (exec_poll_timeout hp hrx hok hb hbound), rfl, rfl, rfl, ?_⟩
  rw [afterStatusRead_scripted rfl]
  rfl

end

section
/-! SUPPORT. Progress and the causes that a run can raise (R201, R245, R265, R313): under the invariant every phase but HALTED has
a next step, unless IDLE refuses what is offered, and a step that ends a request gives none of the three unreachable causes. -/

namespace Sys2Proof.Machine

section
variable {s t : State}

/-! The causes of a response. -/

/-- All causes but the three of R313 that no run raises. -/
def reachableCause (c : Cause) : Bool := c != .badStatusSelector && c != .badPayloadSize && c != .noEraseUnit

theorem reachableCause_iff (c : Cause) :
    reachableCause c = true ↔ c ≠ .badStatusSelector ∧ c ≠ .badPayloadSize ∧ c ≠ .noEraseUnit := by
  simp [reachableCause, and_assoc]

/-- If a response waits, a run can raise its cause. -/
def RespReachable (t : State) : Prop := t.phase = .resp → reachableCause t.resp.cause = true

theorem respReachable_of_phase (h : t.phase ≠ .resp) : RespReachable t := fun hp => absurd hp h

theorem respReachable_raise {c : Cause} (s : State) (h : reachableCause c = true) : RespReachable (raise c s) := fun _ => h

theorem respReachable_respondOk (d : List Byte) (s : State) : RespReachable (respondOk d s) := fun _ => rfl

/-! Progress. -/

theorem mutatingOp_iff (op : Byte) : mutatingOp op = true ↔ op = HostOp.write ∨ op = HostOp.erase ∨ op = HostOp.chipErase := by
  simp [mutatingOp, or_assoc]

/-- ADVANCE has a rule for each of the three mutating operations (R25, log 12). -/
theorem advanceStep_next (h : mutatingOp s.regs.op = true) : ∃ t, advanceStep s = .next t := by
  obtain hop | hop | hop := (mutatingOp_iff _).mp h
  · exact ⟨_, if_pos hop⟩
  · exact ⟨advanceErase s, by simp [advanceStep, hop, HostOp.write, HostOp.erase]⟩
  · exact ⟨respondOk [] s, by simp [advanceStep, hop, HostOp.write, HostOp.erase, HostOp.chipErase]⟩

/-- So has MUT. -/
theorem mutatingInstr_some {p : Params} {r : Regs} (h : mutatingOp r.op = true) : ∃ i, mutatingInstr p r = some i := by
  obtain hop | hop | hop := (mutatingOp_iff _).mp h
  · exact ⟨_, mutatingInstr_write hop⟩
  · exact ⟨_, mutatingInstr_erase hop⟩
  · exact ⟨_, mutatingInstr_chipErase hop⟩

theorem EngineInv.phaseInstr_some (h : EngineInv s) (hp : s.phase.issues = true) : ∃ i, phaseInstr s = some i := by
  cases hphase : s.phase <;> simp only [hphase, Phase.issues, Bool.false_eq_true] at hp
  case mutate =>
    rw [phaseInstr_mutate hphase]
    exact mutatingInstr_some (by simpa [opFitsPhase, hphase] using h.opPhase)
  all_goals exact ⟨_, by rw [phaseInstr, hphase]⟩

theorem exec_wire_next {i : Instr} (hi : isWire i = true) : ∃ t, exec i s = .next t := by
  cases i
  case hostInit | hostRead | hostWrite | hostErase | hostChipErase => cases hi
  all_goals exact ⟨_, rfl⟩

/-- The request that CHECK dispatches keeps the duty, so that no operation refuses it (R139); what is answered at once is OK,
EMPTY_BUFFER or MISALIGNED. -/
theorem EngineInv.dispatch_next {i : Instr} (h : EngineInv s) (hp : s.phase = .check)
    (hd : decode s.params (latchedWords s.regs) = .ok i) : ∃ t, exec i s = .next t ∧ RespReachable t := by
  have hin := inRequest_of_check hp
  have hduty := dutyOk_of_latched h.latched hin
  obtain ⟨hw, hn, -⟩ := (requestLatched_iff s).mp h.latched hin
  rw [decode_latchedWords hw hn] at hd
  obtain ⟨hop, rfl⟩ | ⟨hop, rfl⟩ | ⟨hop, rfl⟩ | ⟨hop, rfl⟩ | ⟨hop, rfl⟩ := decodeHeader_ok hd
  · exact ⟨_, exec_hostInit_latched hop, respReachable_of_phase nofun⟩
  · refine ⟨_, exec_hostRead_latched hop (hn (by rw [hop]; decide)) (hduty (.inl hop)), ?_⟩
    split
    · exact respReachable_raise _ rfl
    · exact respReachable_of_phase nofun
  · refine ⟨_, exec_hostWrite_latched hop (hw hop) (hduty (.inr (.inl hop))), ?_⟩
    split
    · exact respReachable_respondOk _ _
    · exact respReachable_of_phase nofun
  · refine ⟨_, exec_hostErase_latched hop (hn (by rw [hop]; decide)) (hduty (.inr (.inr hop))), ?_⟩
    split_ifs
    · exact respReachable_respondOk _ _
    · exact respReachable_of_phase nofun
    · exact respReachable_raise _ rfl
  · exact ⟨_, exec_hostChipErase_latched hop, respReachable_of_phase nofun⟩

/-- A header's only error is the reserved code (R120). -/
theorem decodeHeader_error {op : Byte} {a l : Word} {d : List Byte} {e : DecodeError} (h : decodeHeader op a l d = .error e) :
    e = .reservedOp op := by
  unfold decodeHeader at h
  split_ifs at h
  cases h
  rfl

theorem EngineInv.step_check_next (h : EngineInv s) (hr : s.env.resetIn = false) (hp : s.phase = .check) :
    ∃ t, step s = .next t := by
  obtain ⟨hw, hn, -⟩ := (requestLatched_iff s).mp h.latched (inRequest_of_check hp)
  have hheader := decode_latchedWords (p := s.params) hw hn
  cases hd : decode s.params (latchedWords s.regs) with
  | ok i =>
    obtain ⟨t, he, -⟩ := h.dispatch_next hp hd
    exact ⟨t, (step_check hr hp hd).trans he⟩
  | error e =>
    rw [decodeHeader_error (hheader.symm.trans hd)] at hd
    exact ⟨_, step_check_reserved hr hp hd⟩

/-- IDLE goes on, or refuses a request that is offered. -/
theorem idleStep_next_or_refused (s : State) :
    (∃ t, idleStep s = .next t) ∨ s.env.reqs ≠ [] ∧ ∃ r, idleStep s = .refused r := by
  unfold idleStep
  split
  · exact .inl ⟨_, rfl⟩
  · next hq =>
    rw [hq]
    split
    · exact .inr ⟨nofun, _, rfl⟩
    · split
      · exact .inr ⟨nofun, _, rfl⟩
      · exact .inl ⟨_, rfl⟩

theorem EngineInv.step_progress (h : EngineInv s) (hr : s.env.resetIn = false) :
    (∃ t, step s = .next t) ∨ (s.phase = .halted ∧ step s = .fault .halted) ∨
      (s.phase = .idle ∧ s.env.reqs ≠ [] ∧ ∃ r, step s = .refused r) := by
  by_cases hi : s.phase.issues = true
  · obtain ⟨i, hinstr⟩ := h.phaseInstr_some hi
    rw [step_issue hr hinstr]
    exact .inl (exec_wire_next (issuedIn_of_phaseInstr hinstr).1)
  cases hp : s.phase <;> simp only [hp, Phase.issues, not_true_eq_false] at hi
  case idle =>
    rw [step_idle hr hp h.noCall]
    exact (idleStep_next_or_refused s).imp_right fun hrefused => .inr ⟨rfl, hrefused⟩
  case check => exact .inl (h.step_check_next hr hp)
  case chunk => exact .inl ⟨_, step_chunk hr hp⟩
  case unit => exact .inl ⟨_, step_unit hr hp⟩
  case sleep => exact .inl ⟨_, step_sleep hr hp⟩
  case advance =>
    rw [step_advance hr hp]
    exact .inl (advanceStep_next (by simpa [opFitsPhase, hp] using h.opPhase))
  case resp => exact .inl ⟨_, step_resp hr hp⟩
  case halted => exact .inr (.inl ⟨rfl, step_halted hr hp⟩)

/-! The causes that each phase gives. -/

/-- A wire command in another phase than RESP ends with OK, BUS_FAILURE, ID_MISMATCH, TIMEOUT or WEL_NOT_SET, or goes on. -/
theorem WireEnd.respReachable {i : Instr} {r : TxnResult} (h : WireEnd i r t) (hp : r.st.phase ≠ .resp) : RespReachable t := by
  cases h with
  | busFailure | idMismatch | pollFails | pollTimeout | gateClosed => exact respReachable_raise _ rfl
  | chipReset | read => exact respReachable_respondOk _ _
  | returned => exact respReachable_of_phase hp
  | pollReady => exact respReachable_of_phase (by cases r.st.regs.cont <;> simp [contPhase])
  | identified | pollHalts | pollBusy | gatePassed | enabled | resetEnabled | mutated => exact respReachable_of_phase nofun

/-- A phase's command is well-formed, so that no payload is rejected for its size (R245). -/
theorem EngineInv.issue_respReachable {i : Instr} (h : EngineInv s) (hi : phaseInstr s = some i) (he : exec i s = .next t) :
    RespReachable t := by
  obtain hend | ⟨⟨a, d, rfl, hsize⟩, -⟩ := WireEnd.of_exec (issuedIn_of_phaseInstr hi).1 he
  · refine hend.respReachable fun hp => ?_
    have hissues := issues_of_phaseInstr hi
    rw [transaction_st_phase] at hp
    simp [hp, Phase.issues] at hissues
  · obtain ⟨hok, -⟩ := Bool.and_eq_true_iff.mp (h.phaseInstr_wellFormed hi)
    exact absurd hok (by simp [hsize])

/-- The range of ERASE stays aligned, so that UNIT always finds a unit (R265). -/
theorem EngineInv.unit_respReachable (h : EngineInv s) (hp : s.phase = .unit) : RespReachable (unitStep s) := by
  have hop : s.regs.op = HostOp.erase := by simpa [opFitsPhase, hp] using h.opPhase
  obtain ⟨hrem, -, hal, -⟩ := (eraseLoopOk_iff s).mp h.eraseLoop (by simp [inLoop, hp]) hop
  obtain ⟨u, hu⟩ := selectUnit_of_aligned hal hrem
  rw [unitStep, hu]
  exact respReachable_of_phase nofun

theorem respReachable_loopTo {p : Phase} (hp : p ≠ .resp) (s : State) : RespReachable (loopTo p s) := by
  unfold loopTo
  split
  · exact respReachable_respondOk _ _
  · exact respReachable_of_phase hp

theorem advanceStep_respReachable (h : advanceStep s = .next t) : RespReachable t := by
  unfold advanceStep at h
  split_ifs at h <;> cases h
  · exact respReachable_loopTo (p := .chunk) nofun _
  · exact respReachable_loopTo (p := .unit) nofun _
  · exact respReachable_respondOk _ _

/-- No row of R25 raises one of the three unreachable causes. -/
theorem EngineInv.phaseStep_respReachable (h : EngineInv s) (hst : PhaseStep s t) (hp : s.phase ≠ .resp) : RespReachable t := by
  cases hst with
  | call _ hc => rw [h.noCall] at hc; cases hc
  | wait => exact respReachable_of_phase hp
  | accept | chunk | sleep | respond => exact respReachable_of_phase nofun
  | dispatch hcheck hd he =>
    obtain ⟨u, he', hu⟩ := h.dispatch_next hcheck hd
    cases he'.symm.trans he
    exact hu
  | reserved => exact respReachable_raise _ rfl
  | unit hunit => exact h.unit_respReachable hunit
  | advance _ ha => exact advanceStep_respReachable ha
  | issue hi he => exact h.issue_respReachable hi he

end

end Sys2Proof.Machine
end

section
open Sys2Proof Sys2Proof.Machine

/-- Settles O52: the invariant gives every phase its next step, and each row of R25 ends with a cause that is reachable. -/
theorem unreachableErrorsStayUnreachable : Obligations.UnreachableErrorsStayUnreachable := by
  intro s h
  cases hr : s.env.resetIn with
  | true => exact .inl ⟨_, step_resetIn hr, fun _ hresp => nomatch hresp⟩
  | false =>
    refine (h.step_progress hr).imp_left fun ⟨t, hstep⟩ => ⟨t, hstep, fun hp hresp => ?_⟩
    exact (reachableCause_iff _).mp (h.phaseStep_respReachable (.of_step hr hstep) hp hresp)

end

section
/-! SUPPORT. Identification and the chip reset sequence (R220 to R225): a script of successes, the check of the two bytes, and the steps of
INIT around its busy wait. -/

namespace Sys2Proof.Machine

section
variable {s t : State} {rest : List SegAnswer}

/-! Runs and scripts. -/

/-- A run goes on from the state that its first steps reach. -/
theorem run_add_of_next {j : Nat} (k : Nat) (h : core.run j s = .next t) : core.run (j + k) s = core.run k t := by
  induction j generalizing s with
  | zero => cases h; rw [Nat.zero_add]
  | succ j ih =>
    rw [Nat.succ_add]
    cases hstep : step s with
    | next u =>
      rw [run_succ_of_next _ hstep] at h ⊢
      exact ih h
    | fault f =>
      have hcore : core.step s = .fault f := hstep
      simp [Host.Core.run, hcore] at h
    | refused f =>
      have hcore : core.step s = .refused f := hstep
      simp [Host.Core.run, hcore] at h

/-- A script whose first answers are all successes. -/
theorem answersOk_of_script {e : Env} {l : List SegAnswer} (h : e.answers = l ++ rest) (hok : ∀ a ∈ l, a.ok = true) :
    answersOk e l.length := by
  intro k hk
  simp [Env.okAt, h, List.getElem?_append_left hk, List.getElem?_eq_getElem hk, hok]

/-! The check of the identification (R220, R221). -/

/-- In ID_TXN the expected answer goes on to the busy wait of the chip reset sequence (R223). -/
theorem identifyOutcome_identified (hp : t.phase = .idTxn) :
    identifyOutcome ⟨true, [t.params.expectedMfr, t.params.expectedDev], t⟩ = startPoll .rsten t :=
  (identifyOutcome_expected t).trans (if_pos hp)

/-- Another answer than the two expected bytes (R221). -/
theorem identifyOutcome_mismatch {rx : List Byte} (h : rx ≠ [t.params.expectedMfr, t.params.expectedDev]) :
    identifyOutcome ⟨true, rx, t⟩ = raise .idMismatch t := by
  rw [identifyOutcome, orBusFailure_of_ok _ rfl, if_neg (by exact h)]

/-- A successful identification hands its check the ID_RX bytes of the read segment, which is left out when there are none (R160). -/
theorem exec_identification_ok (h : answersOk s.env (segmentsOf s.params .identification).length) :
    ∃ gs, exec .identification s = .next (identifyOutcome ⟨true, s.env.rxAt 1 s.params.idRx, afterWindow gs s⟩) := by
  have hsegs : segmentsOf s.params .identification =
      [0x90 :: List.replicate s.params.idPlaceholders s.params.idPlaceholderValue].map .w ++ readUnlessZero s.params.idRx := rfl
  rw [hsegs] at h
  by_cases h0 : s.params.idRx = 0
  · have hnone : s.env.rxAt 1 s.params.idRx = [] := List.eq_nil_of_length_eq_zero (by rw [Env.rxAt_length, h0])
    rw [readUnlessZero, if_pos h0, List.append_nil] at hsegs h
    rw [hnone]
    exact ⟨_, exec_wire_writes (i := .identification) _ rfl nofun hsegs h⟩
  · rw [readUnlessZero, if_neg h0] at hsegs h
    exact ⟨_, exec_wire_read (i := .identification) _ rfl nofun hsegs h⟩

/-! The host operations that go on from CHECK (R25). -/

/-- A range that is not empty and ends in the address space starts in it (R139). -/
theorem dutyOk_of_fits {p : Params} {a : Word} {n : Nat} (h0 : 0 < n) (hlen : n < p.lenSpace)
    (hend : a.toNat + n ≤ p.addrSpace) : dutyOk p a n = true :=
  (dutyOk_iff ..).mpr ⟨by omega, hlen, hend⟩

theorem exec_hostRead_nonempty {a l : Word} (h0 : l ≠ 0) (hduty : dutyOk s.params a l.toNat = true) :
    exec (.hostRead a l) s = .next (setPhase .readTxn (loadRange a l (latch HostOp.read a l [] s))) := by
  simp only [exec, execHostRead, hduty, h0, if_true, if_false]

theorem exec_hostWrite_nonempty {a : Word} {d : List Byte} (h0 : d ≠ []) (hduty : dutyOk s.params a d.length = true) :
    exec (.hostWrite a d) s = .next (setPhase .chunk (clearIdx (loadRange a (BitVec.ofNat 32 d.length)
      (latch HostOp.write a (BitVec.ofNat 32 d.length) d s)))) := by
  simp only [exec, execHostWrite, hduty, h0, if_true, if_false]

theorem exec_hostErase_nonempty {a l : Word} (h0 : l ≠ 0) (halign : eraseAligned s.params a l = true)
    (hduty : dutyOk s.params a l.toNat = true) :
    exec (.hostErase a l) s = .next (setPhase .unit (loadRange a l (latch HostOp.erase a l [] s))) := by
  simp only [exec, execHostErase, hduty, halign, h0, if_true, if_false]

/-! The steps of INIT (R225) before and after its busy wait. -/

theorem step_check_init (hr : s.env.resetIn = false) (hp : s.phase = .check) (hop : s.regs.op = HostOp.init)
    (hbuf : s.regs.wbuf = []) : step s = .next (setPhase .idTxn s) := by
  have hdecode : decode s.params (latchedWords s.regs) = .ok .hostInit := by
    rw [decode_latchedWords (by simp [hop, HostOp.init, HostOp.write]) fun _ => hbuf, hop]
    rfl
  rw [step_check hr hp hdecode, exec_hostInit_latched hop]

/-- s after an identification in ID_TXN that is answered as expected. -/
def identified (s : State) : State :=
  startPoll .rsten (afterWindow [.w (0x90 :: List.replicate s.params.idPlaceholders s.params.idPlaceholderValue) true,
    .r 2 [s.params.expectedMfr, s.params.expectedDev] true] s)

/-- ID_TXN with the expected answer enters the busy wait of the chip reset sequence (R223). -/
theorem step_idTxn_identified (hr : s.env.resetIn = false) (hp : s.phase = .idTxn) (hid : s.params.idRx = 2)
    (h : s.env.answers = [⟨true, []⟩, ⟨true, [s.params.expectedMfr, s.params.expectedDev]⟩] ++ rest) :
    step s = .next (identified s) := by
  have hrx : s.env.rxAt 1 s.params.idRx = [s.params.expectedMfr, s.params.expectedDev] := by
    simp [Env.rxAt, h, hid, fillRx_full]
  rw [step_issue hr (by rw [phaseInstr, hp]), identificationPasses s (answersOk_of_script h (by simp)) hrx, if_pos hp]
  rfl

/-- The busy wait of INIT, with its last poll ready: on to RSTEN, with nothing but the polls and their `Sleep`s in between (R223). -/
theorem run_resetWait {bs : List Byte} {b : Byte} (hr : s.env.resetIn = false) (hp : s.phase = .poll)
    (hcont : s.regs.cont = .rsten) (hmax : s.params.maxPolls = none) (hcs : s.csN = true)
    (hbs : ∀ x ∈ bs, x.getLsbD 0 = true) (hb : b.getLsbD 0 = false)
    (h : s.env.answers = statusScript (bs ++ [b]) ++ rest) :
    ∃ t, core.run (2 * bs.length + 1) s = .next t ∧ t.phase = .rsten ∧ t.env.resetIn = false ∧ t.halted = s.halted ∧
      t.env.answers = rest ∧ t.trace = s.trace ++ busyPolls bs ++ [statusTxn b] := by
  obtain ⟨-, hready⟩ := busyWaitPollsUntilReady bs s rest hr hp hmax hbs hcs
  exact ⟨_, hready b hb h, by simp [hcont], hr, rfl, rfl, rfl⟩

theorem step_rsten (hr : s.env.resetIn = false) (hp : s.phase = .rsten) (h : answersOk s.env 1) :
    step s = .next (setPhase .rst (afterWindow [.w [0x66] true] s)) := by
  obtain ⟨-, henable, -, -⟩ := singleByteCommands s h
  rw [step_issue hr (by rw [phaseInstr, hp]), henable, goingOn, if_pos (by exact hp)]
  rfl

theorem step_rst (hr : s.env.resetIn = false) (hp : s.phase = .rst) (h : answersOk s.env 1) :
    step s = .next (respondOk [] (afterWindow [.w [0x99] true] s)) := by
  obtain ⟨-, -, hreset, -⟩ := singleByteCommands s h
  rw [step_issue hr (by rw [phaseInstr, hp]), hreset]
  simp only [afterWindow, hp, if_true]
  rfl

/-- s after EnableReset, Reset and the response OK, on a bus that does not fail (R222, R225). -/
def afterChipReset (s : State) : State :=
  deliver (respondOk [] (afterWindow [.w [0x99] true] (setPhase .rst (afterWindow [.w [0x66] true] s))))

/-- The three steps from RSTEN to IDLE. -/
theorem run_chipReset (hr : s.env.resetIn = false) (hp : s.phase = .rsten) (h : answersOk s.env 2) :
    core.run 3 s = .next (afterChipReset s) := by
  obtain ⟨-, hsecond⟩ := (answersOk_succ_iff 1).mp h
  have hrsten := step_rsten hr hp fun k hk => h k (Nat.lt_succ_of_lt hk)
  have hrst := step_rst (s := setPhase .rst (afterWindow [.w [0x66] true] s)) hr rfl hsecond
  have hresp : step (respondOk [] _) = .next (afterChipReset s) := step_resp hr rfl
  exact (run_succ_of_next 2 hrsten).trans ((run_succ_of_next 1 hrst).trans (run_succ_of_next 0 hresp))

end

end Sys2Proof.Machine
end

section
open Sys2Proof Sys2Proof.Machine

/-- Settles O19: a failed transaction is every wire command's BUS_FAILURE; after a successful one the comparison decides. -/
theorem identificationPassesExactlyWhen : Obligations.IdentificationPassesExactlyWhen := by
  intro s hp
  by_cases hok : answersOk s.env (segmentsOf s.params .identification).length
  · obtain ⟨gs, hexec⟩ := exec_identification_ok hok
    by_cases hrx : s.env.rxAt 1 s.params.idRx = [s.params.expectedMfr, s.params.expectedDev]
    · rw [hrx] at hexec
      have hpass := identifyOutcome_identified (t := afterWindow gs s) hp
      exact ⟨_, hexec.trans (congrArg Host.Outcome.next hpass), by simp [hok, hrx]⟩
    · have hfail := identifyOutcome_mismatch (t := afterWindow gs s) hrx
      exact ⟨_, hexec.trans (congrArg Host.Outcome.next hfail), by simp [hok, hrx]⟩
  · exact ⟨_, exec_wire_failed rfl nofun nofun hok, by simp [hok, ending]⟩

/-- Settles O59: the step of CHECK, the identification, the busy wait of O55 and the chip reset, one run after the other. -/
theorem initRunsItsSequence : Obligations.InitRunsItsSequence := by
  intro bs b s rest hr hp hop hbuf hmax hid hbs hb h
  have hcheck := step_check_init hr hp hop hbuf
  have hident : step (setPhase .idTxn s) = .next (identified (setPhase .idTxn s)) :=
    step_idTxn_identified hr rfl hid (h.trans (by simp only [List.append_assoc]; rfl))
  have hanswers : (identified (setPhase .idTxn s)).env.answers =
      statusScript (bs ++ [b]) ++ ([⟨true, []⟩, ⟨true, []⟩] ++ rest) := by
    simp [identified, afterWindow, Env.skip, h]
  obtain ⟨t, hwait, hrsten, hreset, hhalted, hrest, htrace⟩ :=
    run_resetWait (s := identified (setPhase .idTxn s)) hr rfl rfl hmax rfl hbs hb hanswers
  have hchip : core.run 3 t = .next (afterChipReset t) :=
    run_chipReset hreset hrsten (answersOk_of_script (l := [⟨true, []⟩, ⟨true, []⟩]) hrest (by simp))
  refine ⟨afterChipReset t, ?run, rfl, rfl, hhalted, ?answers, ?trace⟩
  case run =>
    calc core.run (2 * bs.length + 6) s
      _ = core.run (2 * bs.length + 1 + 3 + 1) (setPhase .idTxn s) := run_succ_of_next _ hcheck
      _ = core.run (2 * bs.length + 1 + 3) (identified (setPhase .idTxn s)) := run_succ_of_next _ hident
      _ = core.run 3 t := run_add_of_next 3 hwait
      _ = .next (afterChipReset t) := hchip
  case answers => simp [afterChipReset, afterWindow, Env.skip, hrest]
  case trace => simp [afterChipReset, afterWindow, htrace, identified]

/-- Settles O32: INIT and CHIP_ERASE check no operand; the ranges of the other three keep the host's duty and are not empty. -/
theorem hostOperationsEnterTheirProcedures : Obligations.HostOperationsEnterTheirProcedures := by
  intro s fits
  refine ⟨rfl, rfl, fun a l h0 ⟨hlen, hend⟩ => ?read, fun a d h0 ⟨hlen, hend⟩ => ?write,
    fun a l h0 ha hl ⟨hlen, hend⟩ => ?erase⟩
  case read => exact exec_hostRead_nonempty h0 (dutyOk_of_fits (by bv_omega) hlen hend)
  case write => exact exec_hostWrite_nonempty h0 (dutyOk_of_fits (List.length_pos_iff.mpr h0) hlen hend)
  case erase =>
    exact exec_hostErase_nonempty h0 ((eraseAligned_iff ..).mpr ⟨ha, hl⟩) (dutyOk_of_fits (by bv_omega) hlen hend)

end

section
/-! SUPPORT. The plan of a WRITE (R240, R241): what its first chunk takes, and one chunk more. -/

namespace Sys2Proof.Machine

/-- The size of the first chunk of a buffer at `cur` (R241). -/
def firstChunk (p : Params) (cur : Word) (data : List Byte) : Nat := min (p.pageSize - cur.toNat % p.pageSize) data.length

section
variable {p : Params}

/-- With `rem` counting the bytes of the buffer, it is the size that CHUNK computes. -/
theorem firstChunk_eq_chunkSize {cur rem : Word} {data : List Byte} (h : data.length = rem.toNat) :
    firstChunk p cur data = chunkSize p cur rem := by
  rw [firstChunk, chunkSize, h]

/-- R241, R244: the chunk holds a byte, lies in its page, and is no longer than the buffer. -/
theorem firstChunk_bounds (hp : p.geometryOk = true) (cur : Word) {data : List Byte} (h : data ≠ []) :
    1 ≤ firstChunk p cur data ∧ cur.toNat % p.pageSize + firstChunk p cur data ≤ p.pageSize ∧
      firstChunk p cur data ≤ data.length := by
  have hlen := List.length_pos_iff.mpr h
  have hmod := Nat.mod_lt cur.toNat (Params.pageSize_pos hp)
  unfold firstChunk
  omega

theorem length_drop_firstChunk_lt (hp : p.geometryOk = true) (cur : Word) {data : List Byte} (h : data ≠ []) :
    (data.drop (firstChunk p cur data)).length < data.length := by
  obtain ⟨hpos, -, hle⟩ := firstChunk_bounds hp cur h
  rw [List.length_drop]
  omega

theorem length_take_firstChunk (p : Params) (cur : Word) (data : List Byte) :
    (data.take (firstChunk p cur data)).length = firstChunk p cur data :=
  List.length_take_of_le (Nat.min_le_right ..)

/-- The fuel counts bytes, and a chunk takes at least one, so that more fuel changes nothing. -/
theorem writeSchedule_of_fuel (hp : p.geometryOk = true) {fuel fuel' : Nat} (cur : Word) {data : List Byte}
    (h : data.length ≤ fuel) (h' : data.length ≤ fuel') : writeSchedule p fuel cur data = writeSchedule p fuel' cur data := by
  induction fuel generalizing fuel' cur data with
  | zero =>
    obtain rfl := List.eq_nil_of_length_eq_zero (Nat.le_zero.mp h)
    cases fuel' <;> simp [writeSchedule]
  | succ fuel ih =>
    by_cases hnil : data = []
    · cases fuel' <;> simp [writeSchedule, hnil]
    · have hless := length_drop_firstChunk_lt hp cur hnil
      cases fuel' with
      | zero => exact absurd (List.eq_nil_of_length_eq_zero (Nat.le_zero.mp h')) hnil
      | succ fuel' =>
        rw [writeSchedule, writeSchedule, if_neg hnil, if_neg hnil]
        exact congrArg _ (ih _ (Nat.le_of_lt_succ (hless.trans_le h)) (Nat.le_of_lt_succ (hless.trans_le h')))

@[simp] theorem writePlan_nil (p : Params) (cur : Word) : writePlan p cur [] = [] := rfl

/-- The plan of a buffer is its first chunk, then the plan of what that leaves (R243). -/
theorem writePlan_chunk (hp : p.geometryOk = true) (cur : Word) {data : List Byte} (h : data ≠ []) : writePlan p cur data =
    (wireAddr p cur, data.take (firstChunk p cur data)) ::
      writePlan p (cur + BitVec.ofNat 32 (firstChunk p cur data)) (data.drop (firstChunk p cur data)) := by
  rw [writePlan, writeSchedule_of_fuel hp cur le_rfl (Nat.le_succ _), writeSchedule, if_neg h]
  exact congrArg _ (writeSchedule_of_fuel hp _ (length_drop_firstChunk_lt hp cur h).le le_rfl)

/-- Induction along the plan: the empty buffer, and one chunk before what it leaves. -/
theorem writePlan_induction (hp : p.geometryOk = true) {motive : Word → List Byte → Prop} (nil : ∀ cur, motive cur [])
    (chunk : ∀ cur data, data ≠ [] →
      motive (cur + BitVec.ofNat 32 (firstChunk p cur data)) (data.drop (firstChunk p cur data)) → motive cur data)
    (cur : Word) (data : List Byte) : motive cur data := by
  induction hn : data.length using Nat.strong_induction_on generalizing cur data with
  | _ n ih =>
    by_cases hnil : data = []
    · rw [hnil]; exact nil cur
    · exact chunk cur data hnil (ih _ (hn ▸ length_drop_firstChunk_lt hp cur hnil) _ _ rfl)

/-! What the plan covers (R244, R246, R247). -/

theorem writePlan_flatten (hp : p.geometryOk = true) (cur : Word) (data : List Byte) :
    (writePlan p cur data).flatMap Prod.snd = data := by
  induction cur, data using writePlan_induction hp with
  | nil cur => rfl
  | chunk cur data h ih => rw [writePlan_chunk hp cur h, List.flatMap_cons, ih, List.take_append_drop]

/-- Dropping address bits keeps the offset in a page (R115). -/
theorem wireAddr_mod_pageSize (hp : p.geometryOk = true) (cur : Word) :
    (wireAddr p cur).toNat % p.pageSize = cur.toNat % p.pageSize := by
  obtain ⟨-, -, -, -, -, hdvd, -⟩ := (Params.geometryOk_iff p).mp hp
  exact wireAddr_mod hdvd cur

/-- Each program holds a byte and lies in one page (R244). -/
theorem writePlan_in_page (hp : p.geometryOk = true) (cur : Word) (data : List Byte) :
    ∀ x ∈ writePlan p cur data, 1 ≤ x.2.length ∧ x.1.toNat % p.pageSize + x.2.length ≤ p.pageSize := by
  induction cur, data using writePlan_induction hp with
  | nil cur => nofun
  | chunk cur data h ih =>
    obtain ⟨hpos, hpage, -⟩ := firstChunk_bounds hp cur h
    rw [writePlan_chunk hp cur h, List.forall_mem_cons, wireAddr_mod_pageSize hp, length_take_firstChunk]
    exact ⟨⟨hpos, hpage⟩, ih⟩

/-- Chunk k goes to the wire address of `cur` plus the sizes before it (R243). -/
theorem writePlan_address (hp : p.geometryOk = true) (cur : Word) (data : List Byte) :
    ∀ k (h : k < (writePlan p cur data).length), ((writePlan p cur data)[k]).1 =
      wireAddr p (cur + BitVec.ofNat 32 (((writePlan p cur data).take k).map fun x => x.2.length).sum) := by
  induction cur, data using writePlan_induction hp with
  | nil cur => nofun
  | chunk cur data h ih =>
    rw [writePlan_chunk hp cur h]
    rintro (_ | k) hk
    · simp
    · have hk' := Nat.lt_of_succ_lt_succ hk
      rw [List.getElem_cons_succ, ih k hk', List.take_succ_cons, List.map_cons, List.sum_cons, length_take_firstChunk,
        BitVec.ofNat_add, BitVec.add_assoc]

/-- A chunk that leaves bytes behind fills its page, so that the next one starts a page (R246). -/
theorem page_start_after_firstChunk (hp : p.geometryOk = true) (cur : Word) {data : List Byte}
    (h : data.drop (firstChunk p cur data) ≠ []) :
    cur.toNat % p.pageSize + firstChunk p cur data = p.pageSize ∧
      (cur + BitVec.ofNat 32 (firstChunk p cur data)).toNat % p.pageSize = 0 := by
  obtain ⟨-, -, -, -, -, hdvd, -⟩ := (Params.geometryOk_iff p).mp hp
  have hspace : p.pageSize ∣ 2 ^ 32 := hdvd.trans (Nat.pow_dvd_pow 2 (by omega))
  have hleft := List.length_pos_iff.mpr h
  have hmod := Nat.mod_lt cur.toNat (Params.pageSize_pos hp)
  rw [List.length_drop] at hleft
  have hfill : cur.toNat % p.pageSize + firstChunk p cur data = p.pageSize := by unfold firstChunk at hleft ⊢; omega
  refine ⟨hfill, ?_⟩
  rw [BitVec.toNat_add, BitVec.toNat_ofNat, Nat.add_mod_mod, Nat.mod_mod_of_dvd _ hspace, ← Nat.mod_add_mod, hfill, Nat.mod_self]

theorem writePlan_starts_pages (hp : p.geometryOk = true) (cur : Word) (data : List Byte) :
    ∀ k (h : k < (writePlan p cur data).length), 1 ≤ k → ((writePlan p cur data)[k]).1.toNat % p.pageSize = 0 := by
  induction cur, data using writePlan_induction hp with
  | nil cur => nofun
  | chunk cur data h ih =>
    rw [writePlan_chunk hp cur h]
    rintro (_ | k) hk hone
    · cases hone
    · have hk' := Nat.lt_of_succ_lt_succ hk
      rw [List.getElem_cons_succ]
      cases k with
      | succ k => exact ih _ hk' (Nat.succ_pos k)
      | zero =>
        have hnext : data.drop (firstChunk p cur data) ≠ [] := by rintro hnil; rw [hnil] at hk'; cases hk'
        rw [writePlan_address hp _ _ 0 hk', wireAddr_mod_pageSize hp]
        simpa using (page_start_after_firstChunk hp cur hnext).2

/-- One program per page touched (R247). -/
theorem writePlan_length (hp : p.geometryOk = true) (cur : Word) (data : List Byte) (h : data ≠ []) :
    (writePlan p cur data).length = (cur.toNat % p.pageSize + data.length + (p.pageSize - 1)) / p.pageSize := by
  have hsize := Params.pageSize_pos hp
  induction cur, data using writePlan_induction hp with
  | nil cur => exact absurd rfl h
  | chunk cur data _ ih =>
    obtain ⟨hpos, hpage, hle⟩ := firstChunk_bounds hp cur h
    rw [writePlan_chunk hp cur h, List.length_cons]
    by_cases hlast : data.drop (firstChunk p cur data) = []
    · have hall : data.length = firstChunk p cur data := Nat.le_antisymm (List.drop_eq_nil_iff.mp hlast) hle
      rw [hlast, writePlan_nil, List.length_nil, hall]
      exact (Nat.div_eq_of_lt_le (by omega) (by omega)).symm
    · obtain ⟨hfill, hstart⟩ := page_start_after_firstChunk hp cur hlast
      rw [ih hlast, hstart, List.length_drop, ← Nat.add_div_right _ hsize]
      congr 1
      omega

end

end Sys2Proof.Machine
end

section
/-! SUPPORT. The short ends of a WRITE: the empty buffer answered at once, and ADVANCE with the loop's test (R243, R248). -/

namespace Sys2Proof.Machine

section
variable {s t : State}

/-- A step that ends with OK is answered by the next one, with no event but the `Respond` (R135). -/
theorem run_two_of_respondOk (hr : t.env.resetIn = false) (h : step s = .next (respondOk [] t)) :
    core.run 2 s = .next (answeredAtOnce .ok .none t) :=
  have hresp : step (respondOk [] t) = .next (answeredAtOnce .ok .none t) := step_resp hr rfl
  (run_succ_of_next 1 h).trans (run_succ_of_next 0 hresp)

/-- CHECK of a WRITE with an empty buffer (R248). -/
theorem step_check_emptyWrite (hr : s.env.resetIn = false) (hp : s.phase = .check) (hop : s.regs.op = HostOp.write)
    (hlen : s.regs.reqLen = 0) (hbuf : s.regs.wbuf = []) (haddr : s.regs.reqAddr.toNat < s.params.addrSpace) :
    step s = .next (respondOk [] (clearIdx (loadRange s.regs.reqAddr s.regs.reqLen s))) := by
  have hdata : s.regs.wbuf.length = s.regs.reqLen.toNat := by rw [hbuf, hlen]; rfl
  have hdecode : decode s.params (latchedWords s.regs) = .ok (.hostWrite s.regs.reqAddr s.regs.wbuf) := by
    rw [latchedWords, hop, decode_write_request _ _ _ hdata]
  have hduty : dutyOk s.params s.regs.reqAddr s.regs.reqLen.toNat = true :=
    (dutyOk_iff ..).mpr (by rw [hlen]; exact ⟨haddr, s.params.lenSpace_pos, haddr.le⟩)
  rw [step_check hr hp hdecode, exec_hostWrite_latched hop hdata hduty, if_pos hbuf]

/-! ADVANCE, by the operation (R25). -/

theorem advanceStep_write (hop : s.regs.op = HostOp.write) : advanceStep s = .next (advanceWrite s) := if_pos hop

theorem advanceStep_erase (hop : s.regs.op = HostOp.erase) : advanceStep s = .next (advanceErase s) := by
  rw [advanceStep, hop, if_neg (by decide), if_pos rfl]

theorem advanceStep_chipErase (hop : s.regs.op = HostOp.chipErase) : advanceStep s = .next (respondOk [] s) := by
  rw [advanceStep, hop, if_neg (by decide), if_neg (by decide), if_pos rfl]

/-- The loop's test on what a subtraction leaves (R25). -/
theorem loopTo_eq_of_rem {p : Phase} {a b : Word} (h : t.regs.rem = a - b) :
    loopTo p t = if a = b then ending .ok .none [] t else { t with phase := p } := by
  rw [loopTo, h]
  simp only [sub_eq_zero]
  rfl

end

end Sys2Proof.Machine
end

section
/-! SUPPORT. The page programs of the current request (R83, R247): what one event more adds to them. -/

namespace Sys2Proof.Machine

section
variable {s t : State} {e : Event}

/-- A request begins with no page program. -/
theorem programsSoFar_of_accept {r : Request} (h : t.trace = s.trace ++ [.accept r]) : programsSoFar t = [] := by
  simp [programsSoFar, currentRun, h]

/-- Another event adds the program that it carried out, if it is one. -/
theorem programsSoFar_of_event (h : t.trace = s.trace ++ [e]) (he : ∀ r, e ≠ .accept r) :
    programsSoFar t = programsSoFar s ++ e.programmed.toList := by
  have hrun : currentRun t = currentRun s ++ [e] := by
    cases e with
    | accept r => exact absurd rfl (he r)
    | _ => simp [currentRun, h]
  rw [programsSoFar, hrun, List.filterMap_append]
  cases hprog : e.programmed <;> simp [programsSoFar, hprog]

/-- A transaction whose first byte is another opcode is no page program (R105). -/
theorem programmed_of_opcode {op : Byte} (hop : op ≠ Opcode.pageProgram) (tl : List Byte) (qs : List SegReq) (env : Env) :
    Event.programmed (.txn (runSegs (.w (op :: tl) :: qs) env)) = none := by
  rw [runSegs_cons, runSeg, segWrite]
  unfold Event.programmed
  split
  · next heq =>
    simp only [Event.txn.injEq, List.cons.injEq, Seg.w.injEq] at heq
    obtain ⟨⟨⟨rfl, -⟩, -⟩, -⟩ := heq
    exact if_neg hop
  · rfl

/-- Only PageProgram's transaction is one. -/
theorem programmed_of_ne_pageProgram {i : Instr} (hi : isWire i = true) (hne : ∀ a d, i ≠ .pageProgram a d) (p : Params)
    (env : Env) : Event.programmed (.txn (runSegs (segmentsOf p i) env)) = none := by
  cases i with
  | pageProgram a d => exact absurd rfl (hne a d)
  | hostInit | hostRead | hostWrite | hostErase | hostChipErase => cases hi
  | _ => exact programmed_of_opcode (by decide) _ _ _

/-- A PageProgram that succeeded carried out its address and its payload in full (R172, R249). -/
theorem programmed_of_pageProgram {p : Params} {a : WireAddr} {d : List Byte} {env : Env} (hd : d ≠ [])
    (hok : (runSegs (segmentsOf p (.pageProgram a d)) env).all Seg.ok = true) :
    Event.programmed (.txn (runSegs (segmentsOf p (.pageProgram a d)) env)) = some (a, d) := by
  have hsegs : segmentsOf p (.pageProgram a d) = [0x02 :: be3 a, d].map .w := by simp [segmentsOf, writeUnlessEmpty, hd]
  rw [hsegs] at hok ⊢
  rw [runSegs_writes (by simpa using (runSegs_all_ok_iff _ _).mp hok)]
  simp [Event.programmed, be3, ofBe3_be3, Opcode.pageProgram]

end

end Sys2Proof.Machine
end

section
/-! SUPPORT. A WRITE against its plan (R240, R249): after n bytes the programs issued and the plan of the bytes left make up the whole
plan; the phases of the loop leave it so, and each program moves one chunk from the plan to the bus. -/

namespace Sys2Proof.Machine

/-- The programs so far and the plan of the buffer from its n-th byte on are the plan of the whole buffer. -/
def PlanSplitAt (s : State) (n : Nat) : Prop :=
  programsSoFar s ++ writePlan s.params (s.regs.reqAddr + BitVec.ofNat 32 n) (s.regs.wbuf.drop n) =
    writePlan s.params s.regs.reqAddr s.regs.wbuf

section
variable {s t : State} {n : Nat}

/-! The split. -/

/-- The same request with the same programs is split in the same place. -/
theorem PlanSplitAt.of_same (h : PlanSplitAt s n) (hst : SameRequest s t) (hprog : programsSoFar t = programsSoFar s) :
    PlanSplitAt t n := by
  rw [PlanSplitAt, hprog, hst.params, hst.reqAddr, hst.wbuf]
  exact h

theorem planSplitAt_zero (h : programsSoFar s = []) : PlanSplitAt s 0 := by simp [PlanSplitAt, h]

/-- With no byte left the whole plan has been issued. -/
theorem PlanSplitAt.whole (h : PlanSplitAt s n) (hn : s.regs.wbuf.length ≤ n) :
    programsSoFar s = writePlan s.params s.regs.reqAddr s.regs.wbuf := by
  rw [PlanSplitAt, List.drop_eq_nil_of_le hn, writePlan_nil, List.append_nil] at h
  exact h

/-- A program of the first chunk of what is left moves the split past that chunk (R242, R243). -/
theorem PlanSplitAt.program {cur : Word} {c : Nat} (h : PlanSplitAt s n) (hst : SameRequest s t) (hp : s.params.geometryOk = true)
    (hcur : cur = s.regs.reqAddr + BitVec.ofNat 32 n) (hleft : s.regs.wbuf.drop n ≠ [])
    (hc : c = firstChunk s.params cur (s.regs.wbuf.drop n))
    (hprog : programsSoFar t = programsSoFar s ++ [(wireAddr s.params cur, (s.regs.wbuf.drop n).take c)]) :
    PlanSplitAt t (n + c) := by
  rw [PlanSplitAt, ← hcur, writePlan_chunk hp cur hleft, ← hc] at h
  rw [PlanSplitAt, hprog, hst.params, hst.reqAddr, hst.wbuf, BitVec.ofNat_add, ← BitVec.add_assoc, ← hcur, ← List.drop_drop,
    List.append_assoc]
  exact h

/-! Progress, by where a state stands. -/

theorem writeProgress_of_op (h : s.regs.op ≠ HostOp.write) : WriteProgress s := fun hop => absurd hop h

/-- Inside the loop. -/
theorem writeProgress_of_loop (hl : inLoop s = true) (h : PlanSplitAt s (writtenBytes s)) : WriteProgress s := by
  have hin := inRequest_of_inLoop hl
  refine fun _ => ⟨fun hp => ?_, fun _ => h, fun hp => absurd hp (ne_resp_of_inRequest hin)⟩
  simp [inLoop, hp] at hl

/-- After the loop, and at once for an empty buffer (R248, R249). -/
theorem writeProgress_respondOk (d : List Byte) (h : programsSoFar s = writePlan s.params s.regs.reqAddr s.regs.wbuf) :
    WriteProgress (respondOk d s) :=
  fun _ => ⟨nofun, nofun, fun _ _ => h⟩

/-- An error promises nothing. -/
theorem writeProgress_raise (c : Cause) (s : State) : WriteProgress (raise c s) := fun _ => ⟨nofun, nofun, nofun⟩

/-- Between two requests, and after a halt. -/
theorem writeProgress_of_not_inside (h : s.phase.runState ≠ .inside) : WriteProgress s := by
  refine fun _ => ⟨fun hp => ?_, fun hl => ?_, fun hp => ?_⟩
  · exact absurd (hp ▸ rfl) h
  · cases hp : s.phase <;> simp [inLoop, hp] at hl <;> exact absurd (hp ▸ rfl) h
  · exact absurd (hp ▸ rfl) h

theorem WriteProgress.split (h : WriteProgress s) (hop : s.regs.op = HostOp.write) (hl : inLoop s = true) :
    PlanSplitAt s (writtenBytes s) := by
  obtain ⟨-, hsplit, -⟩ := h hop
  exact hsplit hl

/-- A step inside the loop that issues no program and carries no byte. -/
theorem WriteProgress.stays (h : WriteProgress s) (hop : s.regs.op = HostOp.write) (hs : inLoop s = true) (ht : inLoop t = true)
    (hst : SameRequest s t) (hprog : programsSoFar t = programsSoFar s) (hn : writtenBytes t = writtenBytes s) :
    WriteProgress t :=
  writeProgress_of_loop ht (hn ▸ (h.split hop hs).of_same hst hprog)

/-! What each row of R25 does to it. -/

theorem SameRequest.loopTo (h : SameRequest s t) (p : Phase) : SameRequest s (loopTo p t) := by
  unfold Machine.loopTo
  split <;> exact ⟨h.params, h.op, h.reqAddr, h.reqLen, h.wbuf⟩

theorem advanceStep_sameRequest (h : advanceStep s = .next t) : SameRequest s t := by
  unfold advanceStep at h
  split_ifs at h <;> cases h
  · exact .loopTo (by constructor <;> rfl) .chunk
  · exact .loopTo (by constructor <;> rfl) .unit
  · constructor <;> rfl

/-- Only acceptance changes the latched request (R130, R137). -/
theorem EngineInv.sameRequest (h : EngineInv s) (hst : PhaseStep s t) (hp : s.phase ≠ .idle) : SameRequest s t := by
  cases hst with
  | call hidle | wait hidle | accept hidle => exact absurd hidle hp
  | dispatch hcheck hd he =>
    have hduty := dutyOk_of_latched h.latched (inRequest_of_check hcheck)
    obtain ⟨hw, hn, -⟩ := (requestLatched_iff s).mp h.latched (inRequest_of_check hcheck)
    rw [decode_latchedWords hw hn] at hd
    obtain ⟨hop, rfl⟩ | ⟨hop, rfl⟩ | ⟨hop, rfl⟩ | ⟨hop, rfl⟩ | ⟨hop, rfl⟩ := decodeHeader_ok hd
    · cases (exec_hostInit_latched hop).symm.trans he
      constructor <;> rfl
    · cases (exec_hostRead_latched hop (hn (by rw [hop]; decide)) (hduty (.inl hop))).symm.trans he
      split <;> constructor <;> rfl
    · cases (exec_hostWrite_latched hop (hw hop) (hduty (.inr (.inl hop)))).symm.trans he
      split <;> constructor <;> rfl
    · cases (exec_hostErase_latched hop (hn (by rw [hop]; decide)) (hduty (.inr (.inr hop)))).symm.trans he
      split_ifs <;> constructor <;> rfl
    · cases (exec_hostChipErase_latched hop).symm.trans he
      constructor <;> rfl
  | reserved | chunk | sleep | respond => constructor <;> rfl
  | unit => unfold unitStep; split <;> constructor <;> rfl
  | advance _ ha => exact advanceStep_sameRequest ha
  | issue hi he =>
    obtain hend | ⟨-, rfl⟩ := WireEnd.of_exec (issuedIn_of_phaseInstr hi).1 he
    · cases hend <;> constructor <;> rfl
    · constructor <;> rfl

/-- CHECK of a WRITE: an empty buffer has an empty plan, another's plan lies before it whole (R240, R248). -/
theorem EngineInv.writeProgress_dispatch {i : Instr} (h : EngineInv s) (hw : WriteProgress s) (hop : s.regs.op = HostOp.write)
    (hp : s.phase = .check) (hd : decode s.params (latchedWords s.regs) = .ok i) (he : exec i s = .next t) : WriteProgress t := by
  have hin := inRequest_of_check hp
  have hduty := dutyOk_of_latched h.latched hin (.inr (.inl hop))
  obtain ⟨hlen, -, -⟩ := (requestLatched_iff s).mp h.latched hin
  obtain ⟨hnone, -, -⟩ := hw hop
  rw [latchedWords, hop, decode_write_request _ _ _ (hlen hop)] at hd
  cases hd
  cases (exec_hostWrite_latched hop (hlen hop) hduty).symm.trans he
  split
  · next hnil =>
    refine writeProgress_respondOk [] ((hnone hp).trans ?_)
    exact (congrArg (writePlan s.params s.regs.reqAddr) hnil).symm
  · exact writeProgress_of_loop rfl (planSplitAt_zero (hnone hp))

/-- What a WRITE has in front of it in its loop, past CHUNK (R241, R243). -/
structure ChunkAhead (s : State) : Prop where
  bytesLeft : s.regs.wbuf.drop s.regs.idx.toNat ≠ []
  cur : s.regs.cur = s.regs.reqAddr + BitVec.ofNat 32 s.regs.idx.toNat
  chunk : s.regs.chunk.toNat = firstChunk s.params s.regs.cur (s.regs.wbuf.drop s.regs.idx.toNat)
  rest : s.regs.idx.toNat + s.regs.rem.toNat = s.regs.wbuf.length
  fits : s.regs.chunk.toNat ≤ s.regs.rem.toNat
  short : s.regs.wbuf.length < 2 ^ 32

theorem EngineInv.chunkAhead (h : EngineInv s) (hop : s.regs.op = HostOp.write) (hl : inLoop s = true) (hp : s.phase ≠ .chunk) :
    ChunkAhead s := by
  obtain ⟨hrem, hsum, hcur, hsize⟩ := (writeLoopOk_iff s).mp h.writeLoop hl hop
  obtain ⟨hlatched, -, -⟩ := (requestLatched_iff s).mp h.latched (inRequest_of_inLoop hl)
  have hlen := hlatched hop
  have hchunk := hsize.resolve_left hp
  obtain ⟨hpos, -, -, hle⟩ := chunkSize_bounds ((Params.wf_iff _).mp h.paramsOk).1 s.regs.cur s.regs.rem hrem
  have hleft : (s.regs.wbuf.drop s.regs.idx.toNat).length = s.regs.rem.toNat := by rw [List.length_drop]; omega
  exact {
    bytesLeft := List.ne_nil_of_length_pos (by omega)
    cur := by rw [hcur, BitVec.ofNat_toNat, BitVec.setWidth_eq]
    chunk := by rw [hchunk, firstChunk_eq_chunkSize hleft]
    rest := hsum.trans hlen.symm
    fits := hchunk ▸ hle
    short := hlen ▸ s.regs.reqLen.isLt }

/-- The loop's test: with nothing left the whole plan has to be out, else the split has to hold for the next chunk (R25). -/
theorem writeProgress_loopTo {p : Phase} (hend : s.regs.rem = 0 → programsSoFar s = writePlan s.params s.regs.reqAddr s.regs.wbuf)
    (hgo : s.regs.rem ≠ 0 → WriteProgress (setPhase p s)) : WriteProgress (loopTo p s) := by
  unfold loopTo
  split
  · next h0 => exact writeProgress_respondOk _ (hend h0)
  · next h0 => exact hgo h0

/-- Past its chunk a WRITE has issued its whole plan, or goes round with the split where it was (R243, R249). -/
theorem EngineInv.writeProgress_advance (h : EngineInv s) (hw : WriteProgress s) (hop : s.regs.op = HostOp.write)
    (hp : s.phase = .advance) : WriteProgress (Machine.advanceWrite s) := by
  have hl : inLoop s = true := by simp [inLoop, hp]
  have hahead := h.chunkAhead hop hl (by simp [hp])
  have hrest := hahead.rest
  have hfits := hahead.fits
  have hshort := hahead.short
  have hsplit := hw.split hop hl
  rw [writtenBytes, if_pos hp] at hsplit
  have hc : (s.regs.chunk.setWidth 32).toNat = s.regs.chunk.toNat := BitVec.toNat_setWidth_of_le (by decide)
  refine writeProgress_loopTo (fun hend => ?_) fun _ => writeProgress_of_loop rfl ?_
  · have hall : s.regs.rem.toNat = s.regs.chunk.toNat := hc ▸ congrArg BitVec.toNat (sub_eq_zero.mp hend)
    exact hsplit.whole (by omega)
  · have hidx : (s.regs.idx + s.regs.chunk.setWidth 32).toNat = s.regs.idx.toNat + s.regs.chunk.toNat := by
      rw [BitVec.toNat_add, hc, Nat.mod_eq_of_lt (by omega)]
    rw [← hidx] at hsplit
    exact hsplit

/-! The wire commands. -/

/-- A transaction that is no page program leaves WRITE where it was. -/
theorem WriteProgress.transaction {qs : List SegReq} (h : WriteProgress s)
    (hq : Event.programmed (.txn (runSegs qs s.env)) = none) : WriteProgress (transaction qs s).st := by
  have hprog : programsSoFar (Machine.transaction qs s).st = programsSoFar s := by
    rw [programsSoFar_of_event (s := s) (e := .txn (runSegs qs s.env)) rfl nofun, hq, Option.toList_none, List.append_nil]
  intro hop
  obtain ⟨hcheck, hsplit, hresp⟩ := h hop
  exact ⟨fun hp => hprog.trans (hcheck hp), fun hl => PlanSplitAt.of_same (s := s) (hsplit hl) (by constructor <;> rfl) hprog,
    fun hp hok => hprog.trans (hresp hp hok)⟩

/-- After the transaction of a command other than PageProgram a WRITE stays in its loop, halts, or ends with an error (R25). -/
theorem WireEnd.writeProgress {i : Instr} {r : TxnResult} (hend : WireEnd i r t) (h : EngineInv r.st) (hw : WriteProgress r.st)
    (hop : r.st.regs.op = HostOp.write) (hissued : issuedIn i r.st.phase = true) (hp : r.st.phase ≠ .mutate) :
    WriteProgress t := by
  have hfit := h.opPhase
  cases hend with
  | busFailure | idMismatch | gateClosed | pollFails | pollTimeout => exact writeProgress_raise _ _
  | pollHalts => exact writeProgress_of_not_inside nofun
  | returned _ hnot => rw [hnot] at hissued; cases hissued
  | mutated hmut => exact absurd hmut hp
  | identified _ hphase | resetEnabled _ hphase | chipReset _ hphase | read hphase =>
    simp [opFitsPhase, hphase, hop, HostOp.write, HostOp.init, HostOp.read] at hfit
  | gatePassed _ hphase | enabled _ hphase =>
    exact hw.stays hop (by simp [inLoop, hphase]) rfl (by constructor <;> rfl) rfl (by simp [writtenBytes, hphase])
  | pollReady _ hphase | pollBusy _ hphase =>
    obtain ⟨hcont, hmid⟩ | ⟨-, hinit⟩ := midLoop_or_init h (.inl hphase)
    · exact hw.stays hop ((midLoop_iff _).mp hmid).1 (by simp [inLoop, hcont, contPhase]) (by constructor <;> rfl) rfl
        (by simp [writtenBytes, hphase, hcont, contPhase])
    · rw [hinit] at hop; cases hop

/-- The outcome in MUT: an error, or on to ADVANCE (R25). -/
theorem writeProgress_mutated {r : TxnResult} (hp : r.st.phase = .mutate)
    (h : r.ok = true → WriteProgress (setPhase .advance r.st)) : WriteProgress (mutated r) := by
  cases hok : r.ok with
  | false => rw [mutated, orBusFailure_of_failed _ hok]; exact writeProgress_raise _ _
  | true => rw [mutated, orBusFailure_of_ok _ hok, continueIn_here _ hp]; exact h hok

/-- PageProgram in MUT moves one chunk from the plan to the bus, or ends the WRITE with an error (R242, R249). -/
theorem EngineInv.writeProgress_program (h : EngineInv s) (hw : WriteProgress s) (hop : s.regs.op = HostOp.write)
    (hp : s.phase = .mutate) (he : exec (.pageProgram (wireAddr s.params s.regs.cur) (payload s.regs)) s = .next t) :
    WriteProgress t := by
  have hl : inLoop s = true := by simp [inLoop, hp]
  have hgeo := ((Params.wf_iff _).mp h.paramsOk).1
  have hahead := h.chunkAhead hop hl (by simp [hp])
  have hsplit := hw.split hop hl
  rw [writtenBytes, if_neg (by simp [hp])] at hsplit
  obtain ⟨hsize, -⟩ := Bool.and_eq_true_iff.mp (h.pageProgram_wellFormed hp hop)
  have hnonempty : payload s.regs ≠ [] := by
    obtain ⟨hmin, -⟩ := (Params.geometryOk_iff _).mp hgeo
    exact List.ne_nil_of_length_pos (hmin.symm.trans_le ((payloadSizeOk_iff ..).mp hsize).1)
  cases (exec_wire rfl (by rintro _ _ ⟨⟩; exact hsize)).symm.trans he
  refine writeProgress_mutated hp fun hok => writeProgress_of_loop rfl ?_
  refine hsplit.program (by constructor <;> rfl) hgeo hahead.cur hahead.bytesLeft hahead.chunk ?_
  rw [programsSoFar_of_event (s := s) (e := .txn _) rfl nofun, programmed_of_pageProgram hnonempty hok]
  rfl

/-- A phase's command keeps WRITE to its plan. -/
theorem EngineInv.writeProgress_issue {i : Instr} (h : EngineInv s) (hw : WriteProgress s) (hop : s.regs.op = HostOp.write)
    (hi : phaseInstr s = some i) (he : exec i s = .next t) : WriteProgress t := by
  by_cases hp : s.phase = .mutate
  · cases hi.symm.trans ((phaseInstr_mutate hp).trans (mutatingInstr_write hop))
    exact h.writeProgress_program hw hop hp he
  · obtain ⟨hwire, hissued⟩ := issuedIn_of_phaseInstr hi
    have hne : ∀ a d, i ≠ .pageProgram a d := by
      rintro a d rfl
      exact hp (by simpa [issuedIn] using hissued)
    obtain hend | ⟨⟨a, d, hprog, -⟩, -⟩ := WireEnd.of_exec hwire he
    · exact hend.writeProgress (h.transaction _) (hw.transaction (programmed_of_ne_pageProgram hwire hne _ _)) hop hissued hp
    · exact absurd hprog (hne a d)

/-! The phases without a transaction. -/

theorem EngineInv.writeProgress_sleep (h : EngineInv s) (hw : WriteProgress s) (hop : s.regs.op = HostOp.write)
    (hp : s.phase = .sleep) : WriteProgress (sleepStep s) := by
  obtain ⟨hcont, hmid⟩ | ⟨-, hinit⟩ := midLoop_or_init h (.inr hp)
  · refine hw.stays hop ((midLoop_iff _).mp hmid).1 (by simp [inLoop, hcont]) (by constructor <;> rfl) ?_
      (by simp [writtenBytes, hp])
    exact (programsSoFar_of_event (sleepStep_trace s) nofun).trans (List.append_nil _)
  · rw [hinit] at hop; cases hop

/-- Every row of R25 keeps WRITE to its plan. -/
theorem EngineInv.writeProgress_phaseStep (h : EngineInv s) (hw : WriteProgress s) (hst : PhaseStep s t) : WriteProgress t := by
  by_cases hop : t.regs.op = HostOp.write
  case neg => exact writeProgress_of_op hop
  have hkept : s.phase ≠ .idle → s.regs.op = HostOp.write := fun hp => (h.sameRequest hst hp).op.symm.trans hop
  cases hst with
  | call _ hc => rw [h.noCall] at hc; cases hc
  | wait => exact hw
  | accept => exact fun _ => ⟨fun _ => programsSoFar_of_accept (s := s) rfl, nofun, nofun⟩
  | respond => exact writeProgress_of_not_inside nofun
  | reserved => exact writeProgress_raise _ _
  | dispatch hp hd he => exact h.writeProgress_dispatch hw (hkept (by simp [hp])) hp hd he
  | chunk hp =>
    exact hw.stays (hkept (by simp [hp])) (by simp [inLoop, hp]) rfl (by constructor <;> rfl) rfl (by simp [writtenBytes, hp])
  | unit hp =>
    have hfit := h.opPhase
    have hwrite := hkept (by simp [hp])
    simp [opFitsPhase, hp, hwrite, HostOp.write, HostOp.erase] at hfit
  | sleep hp => exact h.writeProgress_sleep hw (hkept (by simp [hp])) hp
  | advance hp ha =>
    have hwrite := hkept (by simp [hp])
    cases (advanceStep_write hwrite).symm.trans ha
    exact h.writeProgress_advance hw hwrite hp
  | issue hi he =>
    refine h.writeProgress_issue hw (hkept fun hp => ?_) hi he
    have hissues := issues_of_phaseInstr hi
    simp [hp, Phase.issues] at hissues

end

end Sys2Proof.Machine
end

section
open Sys2Proof Sys2Proof.Machine

/-- Settles O23: the size check comes before the bus. -/
theorem pageProgramSizeRejected : Obligations.PageProgramSizeRejected := by
  intro s a p h
  refine exec_pageProgram_rejected (Bool.eq_false_iff.mpr fun hok => ?_)
  obtain ⟨hmin, hmax⟩ := (payloadSizeOk_iff s.params p).mp hok
  omega

/-- Settles O35: an empty WRITE keeps the host's duty, so that CHECK answers it, and RESP delivers. -/
theorem emptyWriteAnswered : Obligations.EmptyWriteAnswered := by
  intro s hr hp hop hlen hbuf haddr
  have hrun := run_two_of_respondOk (t := clearIdx (loadRange s.regs.reqAddr s.regs.reqLen s)) hr
    (step_check_emptyWrite hr hp hop hlen hbuf haddr)
  exact ⟨_, hrun⟩

/-- Settles O38: the chunk of R241 fits its register, and its bounds are those of `chunkSize`. -/
theorem chunkStep : Obligations.ChunkStep := by
  intro s hr hp hrem hgeo size
  obtain ⟨hpos, hle, hpage, -⟩ := chunkSize_bounds hgeo s.regs.cur s.regs.rem hrem
  have hc := chunkSize_toNat hgeo s.regs.cur s.regs.rem
  rw [← hc] at hpos hle hpage
  exact ⟨_, step_chunk hr hp, hc, hpos, hle, hpage⟩

/-- Settles O40: WRITE and ERASE go on by their loop's test, and CHIP_ERASE has no loop. -/
theorem advanceStep : Obligations.AdvanceStep := by
  intro s hr hp past
  rw [step_advance hr hp]
  refine ⟨fun hop => ?write, fun hop => ?erase, advanceStep_chipErase⟩
  case write => exact (advanceStep_write hop).trans (congrArg _ (loopTo_eq_of_rem rfl))
  case erase => exact (advanceStep_erase hop).trans (congrArg _ (loopTo_eq_of_rem rfl))

/-- Settles O53, by induction along the plan: a chunk is the room left in the page or all that is left. -/
theorem writePlanCoversTheBuffer : Obligations.WritePlanCoversTheBuffer := by
  intro p addr data hp _ _ plan size
  refine ⟨writePlan_flatten hp addr data, fun x hx => ?_, fun k hk => ⟨writePlan_address hp addr data k hk,
    writePlan_starts_pages hp addr data k hk⟩, writePlan_length hp addr data⟩
  obtain ⟨hpos, hpage⟩ := writePlan_in_page hp addr data x hx
  exact ⟨hpos, (Nat.le_add_left ..).trans hpage, hpage⟩

/-- Settles O50: engine reset leaves no request in progress, and a row of R25 moves one chunk of the plan to the bus or none. -/
theorem writeFollowsItsPlan : Obligations.WriteFollowsItsPlan := by
  intro s t h hw hstep
  cases hr : s.env.resetIn with
  | true => rw [step_resetIn hr] at hstep; cases hstep; exact writeProgress_of_not_inside nofun
  | false => exact h.writeProgress_phaseStep hw (.of_step hr hstep)

end

section
/-! SUPPORT. The unit erases of the current request (R83, R267): what one event more adds to them, and which transactions are
unit erases (R178 to R180). -/

namespace Sys2Proof.Machine

section
variable {s t : State} {e : Event}

/-- A request begins with no unit erase. -/
theorem erasesSoFar_of_accept {r : Request} (h : t.trace = s.trace ++ [.accept r]) : erasesSoFar t = [] := by
  simp [erasesSoFar, currentRun, h]

/-- Another event adds the unit erase that it carried out, if it is one. -/
theorem erasesSoFar_of_event (h : t.trace = s.trace ++ [e]) (he : ∀ r, e ≠ .accept r) :
    erasesSoFar t = erasesSoFar s ++ e.erased.toList := by
  have hrun : currentRun t = currentRun s ++ [e] := by
    cases e with
    | accept r => exact absurd rfl (he r)
    | _ => simp [currentRun, h]
  rw [erasesSoFar, hrun, List.filterMap_append]
  cases hunit : e.erased <;> simp [erasesSoFar, hunit]

/-- A transaction whose first byte is no unit's opcode is no unit erase (R105). -/
theorem erased_of_opcode {op : Byte} (hop : unitOfOpcode op = none) (tl : List Byte) (qs : List SegReq) (env : Env) :
    Event.erased (.txn (runSegs (.w (op :: tl) :: qs) env)) = none := by
  rw [runSegs_cons, runSeg, segWrite]
  unfold Event.erased
  split
  · next heq =>
    simp only [Event.txn.injEq, List.cons.injEq, Seg.w.injEq] at heq
    obtain ⟨⟨⟨rfl, -⟩, -⟩, -⟩ := heq
    rw [hop, Option.map_none]
  · rfl

/-- Only the transactions of the three unit erases are. -/
theorem erased_of_ne_eraseInstr {i : Instr} (hi : isWire i = true) (hne : ∀ u a, i ≠ eraseInstr u a) (p : Params) (env : Env) :
    Event.erased (.txn (runSegs (segmentsOf p i) env)) = none := by
  cases i with
  | sectorErase a => exact absurd rfl (hne .sector a)
  | block32Erase a => exact absurd rfl (hne .block32 a)
  | block64Erase a => exact absurd rfl (hne .block64 a)
  | hostInit | hostRead | hostWrite | hostErase | hostChipErase => cases hi
  | _ => exact erased_of_opcode (by decide) _ _ _

/-- A unit's erase command is one write of its opcode and the address (R178 to R180). -/
theorem segmentsOf_eraseInstr (p : Params) (u : EraseUnit) (a : WireAddr) :
    ∃ op, unitOfOpcode op = some u ∧ segmentsOf p (eraseInstr u a) = [op :: be3 a].map .w := by
  cases u
  · exact ⟨0x20, by decide, rfl⟩
  · exact ⟨0x52, by decide, rfl⟩
  · exact ⟨0xD8, by decide, rfl⟩

/-- A unit erase that succeeded carried out its address and its unit (R263, R270). -/
theorem erased_of_eraseInstr {p : Params} {u : EraseUnit} {a : WireAddr} {env : Env}
    (hok : (runSegs (segmentsOf p (eraseInstr u a)) env).all Seg.ok = true) :
    Event.erased (.txn (runSegs (segmentsOf p (eraseInstr u a)) env)) = some (a, u) := by
  obtain ⟨op, hop, hsegs⟩ := segmentsOf_eraseInstr p u a
  rw [hsegs] at hok ⊢
  rw [runSegs_writes (by simpa using (runSegs_all_ok_iff _ _).mp hok)]
  simp [Event.erased, be3, ofBe3_be3, hop]

end

end Sys2Proof.Machine
end

section
/-! SUPPORT. The plan of an ERASE is its first unit and then the plan of what that leaves (R262, R264), whatever its fuel. -/

namespace Sys2Proof.Machine

section
variable {p : Params}

/-- With less than a sector left no row of R262 holds. -/
theorem eraseSchedule_of_lt_sector (hp : p.geometryOk = true) {cur rem : Word} (h : rem.toNat < p.sectorSize) (fuel : Nat) :
    eraseSchedule p fuel cur rem = [] := by
  have hnone : selectUnit p cur rem = none := by
    refine Option.eq_none_iff_forall_ne_some.mpr fun u hu => ?_
    obtain ⟨-, hle⟩ := (unitFits_iff ..).mp (selectUnit_fits hu)
    exact absurd ((u.sectorSize_le hp).trans hle) (Nat.not_le.mpr h)
  cases fuel <;> simp [eraseSchedule, hnone]

/-- The fuel counts sectors, and a unit takes at least one, so that one more changes nothing. -/
theorem eraseSchedule_succ_fuel (hp : p.geometryOk = true) {fuel : Nat} (cur : Word) {rem : Word}
    (h : rem.toNat / p.sectorSize ≤ fuel) : eraseSchedule p (fuel + 1) cur rem = eraseSchedule p fuel cur rem := by
  induction fuel generalizing cur rem with
  | zero =>
    have hlt : rem.toNat < p.sectorSize := (Nat.div_eq_zero_iff_lt (sectorSize_pos hp)).mp (Nat.le_zero.mp h)
    rw [eraseSchedule_of_lt_sector hp hlt, eraseSchedule_of_lt_sector hp hlt]
  | succ fuel ih =>
    by_cases h0 : rem = 0
    · rw [h0, eraseSchedule_zero, eraseSchedule_zero]
    · cases hu : selectUnit p cur rem with
      | none => rw [eraseSchedule, eraseSchedule, hu]
      | some u =>
        obtain ⟨-, hle⟩ := (unitFits_iff ..).mp (selectUnit_fits hu)
        rw [eraseSchedule_succ _ h0 hu, eraseSchedule_succ _ h0 hu]
        exact congrArg _ (ih _ (rem_sub_size_toNat hle ▸ sectors_after_unit hp u h))

theorem eraseSchedule_eq_erasePlan (hp : p.geometryOk = true) {fuel : Nat} (cur : Word) {rem : Word}
    (h : rem.toNat / p.sectorSize ≤ fuel) : eraseSchedule p fuel cur rem = erasePlan p cur rem := by
  induction fuel, h using Nat.le_induction with
  | base => rfl
  | succ fuel h ih => rw [eraseSchedule_succ_fuel hp cur h, ih]

@[simp] theorem erasePlan_zero (p : Params) (cur : Word) : erasePlan p cur 0 = [] := eraseSchedule_zero ..

theorem erasePlan_unit (hp : p.geometryOk = true) {cur rem : Word} {u : EraseUnit} (h0 : rem ≠ 0)
    (hu : selectUnit p cur rem = some u) : erasePlan p cur rem =
      (wireAddr p cur, u) :: erasePlan p (cur + BitVec.ofNat 32 (u.size p)) (rem - BitVec.ofNat 32 (u.size p)) := by
  obtain ⟨-, hle⟩ := (unitFits_iff ..).mp (selectUnit_fits hu)
  have hfuel : (rem - BitVec.ofNat 32 (u.size p)).toNat / p.sectorSize ≤ rem.toNat / p.sectorSize := by
    rw [rem_sub_size_toNat hle]
    exact Nat.div_le_div_right (Nat.sub_le ..)
  rw [← eraseSchedule_eq_erasePlan hp cur (Nat.le_succ _), eraseSchedule_succ _ h0 hu, eraseSchedule_eq_erasePlan hp _ hfuel]

end

end Sys2Proof.Machine
end

section
/-! SUPPORT. An ERASE against its plan (R260, R270): with `left` bytes to go, the units erased and the plan of those bytes make up the
whole plan; the phases of the loop leave it so, and each erase command moves one unit from the plan to the bus. -/

namespace Sys2Proof.Machine

/-- The unit erases so far and the plan of the last `left` bytes of the range are the plan of the whole range. -/
def EraseSplit (s : State) (left : Word) : Prop :=
  erasesSoFar s ++ erasePlan s.params (s.regs.reqAddr + (s.regs.reqLen - left)) left =
    erasePlan s.params s.regs.reqAddr s.regs.reqLen

/-- t stands in the same round of the same loop as s, with the same bytes left, and neither is in ADVANCE, where the round's erase is
done (R25). -/
structure SameRound (s t : State) : Prop extends SameRequest s t where
  rem : t.regs.rem = s.regs.rem
  inLoopBefore : inLoop s = true
  pendingBefore : s.phase ≠ .advance
  inLoopAfter : inLoop t = true
  pendingAfter : t.phase ≠ .advance

section
variable {s t : State} {left : Word}

/-! The split. -/

theorem eraseSplit_reqLen (h : erasesSoFar s = []) : EraseSplit s s.regs.reqLen := by simp [EraseSplit, h]

/-- With no byte left the whole plan has been issued. -/
theorem EraseSplit.whole (h : EraseSplit s 0) : erasesSoFar s = erasePlan s.params s.regs.reqAddr s.regs.reqLen := by
  rw [EraseSplit, erasePlan_zero, List.append_nil] at h
  exact h

/-- The erase of the unit that R262 selects moves the split past that unit (R263, R264). -/
theorem EraseSplit.unit {cur : Word} {u : EraseUnit} (h : EraseSplit s left) (hst : SameRequest s t)
    (hp : s.params.geometryOk = true) (hcur : cur = s.regs.reqAddr + (s.regs.reqLen - left)) (h0 : left ≠ 0)
    (hu : selectUnit s.params cur left = some u)
    (herased : erasesSoFar t = erasesSoFar s ++ [(wireAddr s.params cur, u)]) :
    EraseSplit t (left - BitVec.ofNat 32 (u.size s.params)) := by
  have hnext : s.regs.reqAddr + (s.regs.reqLen - (left - BitVec.ofNat 32 (u.size s.params))) =
      cur + BitVec.ofNat 32 (u.size s.params) := by rw [hcur]; ring
  rw [EraseSplit, ← hcur, erasePlan_unit hp h0 hu] at h
  rw [EraseSplit, herased, hst.params, hst.reqAddr, hst.reqLen, hnext, List.append_assoc]
  exact h

/-! Progress, by where a state stands. -/

theorem eraseProgress_of_op (h : s.regs.op ≠ HostOp.erase) : EraseProgress s := fun hop => absurd hop h

/-- Inside the loop. -/
theorem eraseProgress_of_loop (hl : inLoop s = true) (h : EraseSplit s (eraseLeft s)) : EraseProgress s := by
  have hin := inRequest_of_inLoop hl
  refine fun _ => ⟨fun hp => ?_, fun _ => h, fun hp => absurd hp (ne_resp_of_inRequest hin)⟩
  simp [inLoop, hp] at hl

/-- After the loop, and at once for an empty range (R266, R270). -/
theorem eraseProgress_respondOk (d : List Byte) (h : erasesSoFar s = erasePlan s.params s.regs.reqAddr s.regs.reqLen) :
    EraseProgress (respondOk d s) :=
  fun _ => ⟨nofun, nofun, fun _ _ => h⟩

/-- An error promises nothing. -/
theorem eraseProgress_raise (c : Cause) (s : State) : EraseProgress (raise c s) := fun _ => ⟨nofun, nofun, nofun⟩

/-- Between two requests, and after a halt. -/
theorem eraseProgress_of_not_inside (h : s.phase.runState ≠ .inside) : EraseProgress s := by
  refine fun _ => ⟨fun hp => ?_, fun hl => ?_, fun hp => ?_⟩
  · exact absurd (hp ▸ rfl) h
  · cases hp : s.phase <;> simp [inLoop, hp] at hl <;> exact absurd (hp ▸ rfl) h
  · exact absurd (hp ▸ rfl) h

theorem EraseProgress.split (h : EraseProgress s) (hop : s.regs.op = HostOp.erase) (hl : inLoop s = true) :
    EraseSplit s (eraseLeft s) := by
  obtain ⟨-, hsplit, -⟩ := h hop
  exact hsplit hl

/-- A step inside a round that erases no unit. -/
theorem EraseProgress.stays (h : EraseProgress s) (hop : s.regs.op = HostOp.erase) (hst : SameRound s t)
    (herased : erasesSoFar t = erasesSoFar s) : EraseProgress t := by
  have hsplit := h.split hop hst.inLoopBefore
  rw [eraseLeft, if_neg hst.pendingBefore, EraseSplit] at hsplit
  refine eraseProgress_of_loop hst.inLoopAfter ?_
  rw [eraseLeft, if_neg hst.pendingAfter, EraseSplit, herased, hst.params, hst.reqAddr, hst.reqLen, hst.rem]
  exact hsplit

/-! What each row of R25 does to it. -/

/-- CHECK of an ERASE: an empty range has an empty plan, another's plan lies before it whole, and a misaligned one is an error
(R260, R261, R266). -/
theorem EngineInv.eraseProgress_dispatch {i : Instr} (h : EngineInv s) (hprog : EraseProgress s) (hop : s.regs.op = HostOp.erase)
    (hp : s.phase = .check) (hd : decode s.params (latchedWords s.regs) = .ok i) (he : exec i s = .next t) : EraseProgress t := by
  have hin := inRequest_of_check hp
  have hduty := dutyOk_of_latched h.latched hin (.inr (.inr hop))
  obtain ⟨hwrite, hempty, -⟩ := (requestLatched_iff s).mp h.latched hin
  have hbuf : s.regs.wbuf = [] := hempty (by rw [hop]; decide)
  obtain ⟨hcheck, -, -⟩ := hprog hop
  have hnone := hcheck hp
  rw [decode_latchedWords hwrite hempty, hop] at hd
  cases hd
  cases (exec_hostErase_latched hop hbuf hduty).symm.trans he
  split_ifs with hal hlen
  · refine eraseProgress_respondOk [] (hnone.trans ?_)
    exact ((congrArg (erasePlan s.params s.regs.reqAddr) hlen).trans (erasePlan_zero ..)).symm
  · exact eraseProgress_of_loop rfl (eraseSplit_reqLen hnone)
  · exact eraseProgress_raise _ _

/-- UNIT selects the round's unit and leaves the split where it is, or ends the ERASE with an error (R262, R265). -/
theorem EraseProgress.unitStep (h : EraseProgress s) (hop : s.regs.op = HostOp.erase) (hp : s.phase = .unit) :
    EraseProgress (unitStep s) := by
  unfold Machine.unitStep
  split
  · exact h.stays hop ⟨by constructor <;> rfl, rfl, by simp [inLoop, hp], by simp [hp], rfl, nofun⟩ rfl
  · exact eraseProgress_raise _ _

/-- The loop's test: with nothing left the whole plan has to be out, else the split has to hold for the next unit (R25). -/
theorem eraseProgress_loopTo {p : Phase} (hend : s.regs.rem = 0 → erasesSoFar s = erasePlan s.params s.regs.reqAddr s.regs.reqLen)
    (hgo : EraseProgress (setPhase p s)) : EraseProgress (loopTo p s) := by
  unfold loopTo
  split
  · next h0 => exact eraseProgress_respondOk _ (hend h0)
  · exact hgo

/-- Past its unit an ERASE has issued its whole plan, or goes round with the split where it was (R264, R270). -/
theorem EraseProgress.advanceErase (h : EraseProgress s) (hop : s.regs.op = HostOp.erase) (hp : s.phase = .advance) :
    EraseProgress (advanceErase s) := by
  have hsplit := h.split hop (by simp [inLoop, hp])
  rw [eraseLeft, if_pos hp] at hsplit
  refine eraseProgress_loopTo (fun hend => ?_) (eraseProgress_of_loop rfl hsplit)
  rw [show s.regs.rem - BitVec.ofNat 32 (s.regs.unit.size s.params) = 0 from hend] at hsplit
  exact hsplit.whole

/-- SLEEP waits inside the round (R320). -/
theorem EngineInv.eraseProgress_sleep (h : EngineInv s) (hprog : EraseProgress s) (hop : s.regs.op = HostOp.erase)
    (hp : s.phase = .sleep) : EraseProgress (sleepStep s) := by
  obtain ⟨hcont, hmid⟩ | ⟨-, hinit⟩ := midLoop_or_init h (.inr hp)
  · refine hprog.stays hop ⟨by constructor <;> rfl, rfl, ((midLoop_iff _).mp hmid).1, by simp [hp], by simp [inLoop, hcont],
      nofun⟩ ?_
    exact (erasesSoFar_of_event (sleepStep_trace s) nofun).trans (List.append_nil _)
  · rw [hinit] at hop; cases hop

/-! The wire commands. -/

/-- A transaction that is no unit erase leaves ERASE where it was. -/
theorem EraseProgress.transaction {qs : List SegReq} (h : EraseProgress s)
    (hq : Event.erased (.txn (runSegs qs s.env)) = none) : EraseProgress (transaction qs s).st := by
  have herased : erasesSoFar (Machine.transaction qs s).st = erasesSoFar s := by
    rw [erasesSoFar_of_event (s := s) (e := .txn (runSegs qs s.env)) rfl nofun, hq, Option.toList_none, List.append_nil]
  unfold EraseProgress
  rw [herased]
  exact h

/-- After the transaction of a command before MUT an ERASE stays in its round, halts, or ends with an error (R25). -/
theorem WireEnd.eraseProgress {i : Instr} {r : TxnResult} (hend : WireEnd i r t) (h : EngineInv r.st) (hprog : EraseProgress r.st)
    (hop : r.st.regs.op = HostOp.erase) (hissued : issuedIn i r.st.phase = true) (hp : r.st.phase ≠ .mutate) :
    EraseProgress t := by
  have hfit := h.opPhase
  cases hend with
  | busFailure | idMismatch | gateClosed | pollFails | pollTimeout => exact eraseProgress_raise _ _
  | pollHalts => exact eraseProgress_of_not_inside nofun
  | returned _ hnot => rw [hnot] at hissued; cases hissued
  | mutated hmut => exact absurd hmut hp
  | identified _ hphase | resetEnabled _ hphase | chipReset _ hphase | read hphase =>
    simp [opFitsPhase, hphase, hop, HostOp.erase, HostOp.init, HostOp.read] at hfit
  | gatePassed _ hphase | enabled _ hphase =>
    exact hprog.stays hop ⟨by constructor <;> rfl, rfl, by simp [inLoop, hphase], by simp [hphase], rfl, nofun⟩ rfl
  | pollReady _ hphase | pollBusy _ hphase =>
    obtain ⟨hcont, hmid⟩ | ⟨-, hinit⟩ := midLoop_or_init h (.inl hphase)
    · exact hprog.stays hop ⟨by constructor <;> rfl, rfl, ((midLoop_iff _).mp hmid).1, by simp [hphase],
        by simp [inLoop, hcont, contPhase], by simp [hcont, contPhase]⟩ rfl
    · rw [hinit] at hop; cases hop

/-- A unit erase is its transaction, and in MUT on to ADVANCE (R178 to R180). -/
theorem exec_eraseInstr (u : EraseUnit) (a : WireAddr) (s : State) :
    exec (eraseInstr u a) s = .next (mutated (Machine.transaction (segmentsOf s.params (eraseInstr u a)) s)) := by
  cases u <;> rfl

/-- The outcome in MUT: an error, or on to ADVANCE (R25). -/
theorem eraseProgress_mutated {r : TxnResult} (hp : r.st.phase = .mutate)
    (h : r.ok = true → EraseProgress (setPhase .advance r.st)) : EraseProgress (mutated r) := by
  cases hok : r.ok with
  | false => rw [mutated, orBusFailure_of_failed _ hok]; exact eraseProgress_raise _ _
  | true => rw [mutated, orBusFailure_of_ok _ hok, continueIn_here _ hp]; exact h hok

/-- The unit erase in MUT moves one unit from the plan to the bus, or ends the ERASE with an error (R263, R270). -/
theorem EngineInv.eraseProgress_erase (h : EngineInv s) (hprog : EraseProgress s) (hop : s.regs.op = HostOp.erase)
    (hp : s.phase = .mutate) (he : exec (eraseInstr s.regs.unit (wireAddr s.params s.regs.cur)) s = .next t) :
    EraseProgress t := by
  have hl : inLoop s = true := by simp [inLoop, hp]
  obtain ⟨hrem, -, -, hcur, hsel⟩ := (eraseLoopOk_iff s).mp h.eraseLoop hl hop
  have hsplit := hprog.split hop hl
  rw [eraseLeft, if_neg (by simp [hp])] at hsplit
  cases (exec_eraseInstr ..).symm.trans he
  refine eraseProgress_mutated hp fun hok => eraseProgress_of_loop rfl ?_
  refine hsplit.unit (by constructor <;> rfl) ((Params.wf_iff _).mp h.paramsOk).1 hcur hrem
    (hsel.resolve_left (by simp [hp])) ?_
  rw [erasesSoFar_of_event (s := s) (e := .txn _) rfl nofun, erased_of_eraseInstr hok]
  rfl

/-- A unit erase is issued in MUT only. -/
theorem issuedIn_eraseInstr {u : EraseUnit} {a : WireAddr} {p : Phase} (h : issuedIn (eraseInstr u a) p = true) : p = .mutate := by
  cases u <;> exact eq_of_beq h

/-- A phase's command keeps ERASE to its plan. -/
theorem EngineInv.eraseProgress_issue {i : Instr} (h : EngineInv s) (hprog : EraseProgress s) (hop : s.regs.op = HostOp.erase)
    (hi : phaseInstr s = some i) (he : exec i s = .next t) : EraseProgress t := by
  by_cases hp : s.phase = .mutate
  · cases hi.symm.trans ((phaseInstr_mutate hp).trans (mutatingInstr_erase hop))
    exact h.eraseProgress_erase hprog hop hp he
  · obtain ⟨hwire, hissued⟩ := issuedIn_of_phaseInstr hi
    obtain hend | ⟨-, rfl⟩ := WireEnd.of_exec hwire he
    · have hne : ∀ u a, i ≠ eraseInstr u a := by
        rintro u a rfl
        exact hp (issuedIn_eraseInstr hissued)
      exact hend.eraseProgress (h.transaction _) (hprog.transaction (erased_of_ne_eraseInstr hwire hne _ _)) hop hissued hp
    · exact eraseProgress_raise _ _

/-- Every row of R25 keeps ERASE to its plan. -/
theorem EngineInv.eraseProgress_phaseStep (h : EngineInv s) (hprog : EraseProgress s) (hst : PhaseStep s t) : EraseProgress t := by
  by_cases hop : t.regs.op = HostOp.erase
  case neg => exact eraseProgress_of_op hop
  have hkept : s.phase ≠ .idle → s.regs.op = HostOp.erase := fun hp => (h.sameRequest hst hp).op.symm.trans hop
  cases hst with
  | call _ hc => rw [h.noCall] at hc; cases hc
  | wait => exact hprog
  | accept => exact fun _ => ⟨fun _ => erasesSoFar_of_accept (s := s) rfl, nofun, nofun⟩
  | respond => exact eraseProgress_of_not_inside nofun
  | reserved => exact eraseProgress_raise _ _
  | dispatch hp hd he => exact h.eraseProgress_dispatch hprog (hkept (by simp [hp])) hp hd he
  | chunk hp =>
    have hfit := h.opPhase
    have herase := hkept (by simp [hp])
    simp [opFitsPhase, hp, herase, HostOp.write, HostOp.erase] at hfit
  | unit hp => exact hprog.unitStep (hkept (by simp [hp])) hp
  | sleep hp => exact h.eraseProgress_sleep hprog (hkept (by simp [hp])) hp
  | advance hp ha =>
    have herase := hkept (by simp [hp])
    cases (advanceStep_erase herase).symm.trans ha
    exact hprog.advanceErase herase hp
  | issue hi he =>
    refine h.eraseProgress_issue hprog (hkept fun hp => ?_) hi he
    have hissues := issues_of_phaseInstr hi
    simp [hp, Phase.issues] at hissues

end

end Sys2Proof.Machine
end

section
/-! SUPPORT. The short ends of an ERASE in CHECK (R261, R266), and the step of UNIT, one equation for each row of R262. -/

namespace Sys2Proof.Machine

section
variable {s : State}

/-- CHECK of an ERASE that keeps the host's duty (R260, R261, R266). -/
theorem step_check_erase (hr : s.env.resetIn = false) (hp : s.phase = .check) (hop : s.regs.op = HostOp.erase)
    (hbuf : s.regs.wbuf = []) (hduty : dutyOk s.params s.regs.reqAddr s.regs.reqLen.toNat = true) :
    step s = .next (
      if eraseAligned s.params s.regs.reqAddr s.regs.reqLen then
        if s.regs.reqLen = 0 then respondOk [] (loadRange s.regs.reqAddr s.regs.reqLen s)
        else setPhase .unit (loadRange s.regs.reqAddr s.regs.reqLen s)
      else raise .misaligned s) := by
  have hdecode : decode s.params (latchedWords s.regs) = .ok (.hostErase s.regs.reqAddr s.regs.reqLen) := by
    rw [latchedWords, hop, hbuf, List.append_nil, decode_header_only _ (by decide)]
    rfl
  rw [step_check hr hp hdecode, exec_hostErase_latched hop hbuf hduty]

/-- A range that is not aligned is answered with the error (R261). -/
theorem run_two_misalignedErase (hr : s.env.resetIn = false) (hp : s.phase = .check) (hop : s.regs.op = HostOp.erase)
    (hbuf : s.regs.wbuf = []) (hduty : dutyOk s.params s.regs.reqAddr s.regs.reqLen.toNat = true)
    (hal : ¬ eraseAligned s.params s.regs.reqAddr s.regs.reqLen = true) :
    core.run 2 s = .next (answeredAtOnce .err .misaligned s) :=
  run_two_of_raise hr ((step_check_erase hr hp hop hbuf hduty).trans (by rw [if_neg hal]))

/-- The step of UNIT when R262 selects a unit. -/
theorem step_unit_some {u : EraseUnit} (hr : s.env.resetIn = false) (hp : s.phase = .unit)
    (hu : selectUnit s.params s.regs.cur s.regs.rem = some u) :
    step s = .next { s with phase := .poll, regs := { s.regs with unit := u, polls := 0, cont := .wren } } := by
  rw [step_unit hr hp, unitStep, hu]
  rfl

/-- The step of UNIT when it selects none (R265). -/
theorem step_unit_none (hr : s.env.resetIn = false) (hp : s.phase = .unit)
    (hu : selectUnit s.params s.regs.cur s.regs.rem = none) : step s = .next (ending .err .noEraseUnit [] s) := by
  rw [step_unit hr hp, unitStep, hu]
  rfl

end

/-! The rows of R262, from the largest unit down. -/

section
variable {p : Params} {cur rem : Word}

theorem selectUnit_block64 (h : unitFits p .block64 cur rem = true) : selectUnit p cur rem = some .block64 := if_pos h

theorem selectUnit_block32 (h64 : ¬ unitFits p .block64 cur rem = true) (h : unitFits p .block32 cur rem = true) :
    selectUnit p cur rem = some .block32 := by
  rw [selectUnit, if_neg h64, if_pos h]

theorem selectUnit_sector (h64 : ¬ unitFits p .block64 cur rem = true) (h32 : ¬ unitFits p .block32 cur rem = true)
    (h : unitFits p .sector cur rem = true) : selectUnit p cur rem = some .sector := by
  rw [selectUnit, if_neg h64, if_neg h32, if_pos h]

theorem selectUnit_none (h64 : ¬ unitFits p .block64 cur rem = true) (h32 : ¬ unitFits p .block32 cur rem = true)
    (h : ¬ unitFits p .sector cur rem = true) : selectUnit p cur rem = none := by
  rw [selectUnit, if_neg h64, if_neg h32, if_neg h]

end

end Sys2Proof.Machine
end

section
open Sys2Proof Sys2Proof.Machine

/-- Settles O51: engine reset leaves no request in progress, and a row of R25 moves one unit of the plan to the bus or none. -/
theorem eraseFollowsItsPlan : Obligations.EraseFollowsItsPlan := by
  intro s t h hprog hstep
  cases hr : s.env.resetIn with
  | true => rw [step_resetIn hr] at hstep; cases hstep; exact eraseProgress_of_not_inside nofun
  | false => exact h.eraseProgress_phaseStep hprog (.of_step hr hstep)

/-- Settles O36: CHECK finds the range misaligned and raises, and RESP delivers. -/
theorem misalignedEraseAnswered : Obligations.MisalignedEraseAnswered := by
  refine ⟨rfl, fun s hr hp hop hbuf haddr hlen hend hmis => ?_⟩
  refine run_two_misalignedErase hr hp hop hbuf ((dutyOk_iff ..).mpr ⟨haddr, hlen, hend⟩) fun hal => ?_
  obtain ⟨ha, hl⟩ := (eraseAligned_iff ..).mp hal
  exact hmis.elim (absurd ha) (absurd hl)

/-- Settles O37: an empty range keeps the host's duty and its length is aligned, so that the address decides. -/
theorem emptyEraseAnswered : Obligations.EmptyEraseAnswered := by
  refine ⟨rfl, fun s hr hp hop hlen hbuf haddr => ?_⟩
  have hlen0 : s.regs.reqLen.toNat = 0 := congrArg BitVec.toNat hlen
  have hduty : dutyOk s.params s.regs.reqAddr s.regs.reqLen.toNat = true :=
    (dutyOk_iff ..).mpr (by rw [hlen0]; exact ⟨haddr, s.params.lenSpace_pos, haddr.le⟩)
  have hal : eraseAligned s.params s.regs.reqAddr s.regs.reqLen = true ↔ s.regs.reqAddr.toNat % s.params.sectorSize = 0 := by
    rw [eraseAligned_iff, hlen0, Nat.zero_mod]
    exact and_iff_left rfl
  refine ⟨fun ha => ?aligned, fun hmis => ?misaligned⟩
  case aligned =>
    have hstep := step_check_erase hr hp hop hbuf hduty
    rw [if_pos (hal.mpr ha), if_pos hlen] at hstep
    exact ⟨_, run_two_of_respondOk (t := loadRange s.regs.reqAddr s.regs.reqLen s) hr hstep⟩
  case misaligned => exact run_two_misalignedErase hr hp hop hbuf hduty (hmis ∘ hal.mp)

/-- Settles O39: the conditions are those of `unitFits`, and each row of `selectUnit` gives its step. -/
theorem unitStep : Obligations.UnitStep := by
  intro s hr hp fits big middle small chosen
  have hbig : unitFits s.params .block64 s.regs.cur s.regs.rem = true ↔ big := unitFits_iff ..
  have hmiddle : unitFits s.params .block32 s.regs.cur s.regs.rem = true ↔ middle := unitFits_iff ..
  have hsmall : unitFits s.params .sector s.regs.cur s.regs.rem = true ↔ small := unitFits_iff ..
  rw [← hbig, ← hmiddle, ← hsmall]
  exact ⟨fun h => step_unit_some hr hp (selectUnit_block64 h), fun h64 h => step_unit_some hr hp (selectUnit_block32 h64 h),
    fun h64 h32 h => step_unit_some hr hp (selectUnit_sector h64 h32 h),
    fun h64 h32 h => step_unit_none hr hp (selectUnit_none h64 h32 h)⟩

end

section
/-! SUPPORT. READ from CHECK on: its row of CHECK (R280, R281), and the FastRead of READ_TXN with the response after it (R284, R286). -/

namespace Sys2Proof.Machine

section
variable {s : State}

/-- CHECK of a READ that keeps the host's duty (R280, R281). -/
theorem step_check_read (hr : s.env.resetIn = false) (hp : s.phase = .check) (hop : s.regs.op = HostOp.read)
    (hbuf : s.regs.wbuf = []) (hduty : dutyOk s.params s.regs.reqAddr s.regs.reqLen.toNat = true) :
    step s = .next (if s.regs.reqLen = 0 then raise .emptyBuffer s
      else setPhase .readTxn (loadRange s.regs.reqAddr s.regs.reqLen s)) := by
  have hdecode : decode s.params (latchedWords s.regs) = .ok (.hostRead s.regs.reqAddr s.regs.reqLen) := by
    rw [latchedWords, hop, hbuf, List.append_nil, decode_header_only _ (by decide)]
    rfl
  rw [step_check hr hp hdecode, exec_hostRead_latched hop hbuf hduty]

/-- The two steps from READ_TXN to IDLE, once it is known how the FastRead of the engine's registers ends (R25, R135). -/
theorem run_readTxn {t : State} {st : Status} {c : Cause} {d : List Byte} (hr : s.env.resetIn = false) (hp : s.phase = .readTxn)
    (h : exec (.fastRead (wireAddr s.params s.regs.cur) s.regs.rem.toNat) s = .next (ending st c d t))
    (ht : t.env.resetIn = false) :
    core.run 2 s = .next (deliver (ending st c d t)) :=
  have hissue : step s = .next (ending st c d t) := (step_issue hr (by rw [phaseInstr, hp])).trans h
  have hresp : step (ending st c d t) = .next (deliver (ending st c d t)) := step_resp ht rfl
  (run_succ_of_next 1 hissue).trans (run_succ_of_next 0 hresp)

end

end Sys2Proof.Machine
end

section
open Sys2Proof Sys2Proof.Machine

/-- Settles O58: CHECK goes on to READ_TXN, whose FastRead is that of O25 where its segments succeed and that of O30 where one
fails, and RESP delivers. -/
theorem readMakesOneTransaction : Obligations.ReadMakesOneTransaction := by
  intro s hr hp hop hbuf h0 hlen hend n a header writes rx
  have hn : 1 ≤ n := by bv_omega
  have hcheck := step_check_read hr hp hop hbuf (dutyOk_of_fits hn hlen hend)
  rw [if_neg h0] at hcheck
  let u := setPhase .readTxn (loadRange s.regs.reqAddr s.regs.reqLen s)
  have hrun : core.run 3 s = core.run 2 u := run_succ_of_next 2 hcheck
  by_cases hok : answersOk s.env (writes.length + 1)
  · obtain ⟨hrx, hread⟩ := fastReadCommand u a n hn hok
    refine ⟨_, hrun.trans (run_readTxn hr rfl hread hr), rfl, fun _ => ⟨hrx, ?trace⟩, absurd hok⟩
    case trace => exact List.append_assoc s.trace [_] [_]
  · have hsegs : segmentsOf u.params (.fastRead a n) = writes.map .w ++ [.r n] :=
      segmentsOf_fastRead u.params a (Nat.one_le_iff_ne_zero.mp hn)
    have hfail : ¬ answersOk u.env (segmentsOf u.params (.fastRead a n)).length := by
      rwa [hsegs, List.length_append, List.length_map]
    have hread := exec_wire_failed (i := .fastRead a n) rfl nofun nofun hfail
    rw [hsegs] at hread
    refine ⟨_, hrun.trans (run_readTxn hr rfl hread hr), rfl, fun h => absurd h hok, fun _ => ?trace⟩
    case trace => exact List.append_assoc s.trace [_] [_]

/-- Settles O34: an empty READ keeps the host's duty, so that CHECK raises, and RESP delivers. -/
theorem emptyReadAnswered : Obligations.EmptyReadAnswered := by
  intro s hr hp hop hlen hbuf haddr
  have hduty : dutyOk s.params s.regs.reqAddr s.regs.reqLen.toNat = true :=
    (dutyOk_iff ..).mpr (by rw [hlen]; exact ⟨haddr, s.params.lenSpace_pos, haddr.le⟩)
  exact run_two_of_raise hr ((step_check_read hr hp hop hbuf hduty).trans (by rw [if_pos hlen]))

end

section
/-! SUPPORT. The opcode of a wire command's transaction (R105): the mutating ones are the commands of MUT (R350), and a PageProgram whose
payload fits its page leaves an event that does (R116, R351). -/

namespace Sys2Proof.Machine

open Laws.EncodedOpcode (rowOpcode)

/-- The transaction of a wire command begins with its opcode (R105, R118), even if its first segment fails. -/
theorem opcode_segmentsOf (p : Params) {i : Instr} (hi : isWire i = true) (e : Env) :
    Event.opcode (.txn (runSegs (segmentsOf p i) e)) = some (rowOpcode i) := by
  cases i with
  | hostInit | hostRead | hostWrite | hostErase | hostChipErase => cases hi
  | _ => rfl

/-- The mutating transactions are those of the commands that R25 issues in MUT (R350). -/
theorem mutating_segmentsOf (p : Params) {i : Instr} (hi : isWire i = true) (e : Env) :
    Event.mutating (.txn (runSegs (segmentsOf p i) e)) = issuedIn i .mutate := by
  rw [Event.mutating, opcode_segmentsOf p hi e]
  cases i with
  | hostInit | hostRead | hostWrite | hostErase | hostChipErase => cases hi
  | _ => rfl

/-- A command of MUT is issued in no other phase. -/
theorem eq_mutate_of_issuedIn {i : Instr} {q : Phase} (hm : issuedIn i .mutate = true) (hq : issuedIn i q = true) :
    q = .mutate := by
  cases i with
  | pageProgram | sectorErase | block32Erase | block64Erase | chipErase => exact eq_of_beq hq
  | _ => cases hm

/-- An event of another opcode is no PageProgram that could leave its page. -/
theorem pageFits_of_opcode (p : Params) {e : Event} (h : e.opcode ≠ some Opcode.pageProgram) : e.pageFits p = true := by
  unfold Event.pageFits
  split
  · next op _ _ _ _ _ _ _ =>
    have hop : op ≠ Opcode.pageProgram := fun heq => h (congrArg some heq)
    simp [hop]
  · rfl

/-- A PageProgram that fits its page does so as an event, whichever of its segments fails. -/
theorem pageFits_pageProgram {p : Params} {a : WireAddr} {data : List Byte} (e : Env) (h : fitsPage p a data = true) :
    Event.pageFits p (.txn (runSegs (segmentsOf p (.pageProgram a data)) e)) = true := by
  have hfit : fitsPage p (ofBe3 (a.extractLsb' 16 8) (a.extractLsb' 8 8) (a.extractLsb' 0 8)) data = true := by rwa [ofBe3_be3]
  cases hok : e.okAt 0 with
  | false => rw [segmentsOf, runSegs_cons_failed _ _ hok]; rfl
  | true =>
    rw [segmentsOf, runSegs_cons, if_pos hok, writeUnlessEmpty]
    split
    · rfl
    · rw [runSegs_cons]; exact hfit

/-- The transaction of a well-formed wire command keeps R351. -/
theorem pageFits_segmentsOf {p : Params} {i : Instr} (hi : isWire i = true) (hwf : i.WellFormed p = true) (e : Env) :
    Event.pageFits p (.txn (runSegs (segmentsOf p i) e)) = true := by
  by_cases hprog : ∃ a data, i = .pageProgram a data
  · obtain ⟨a, data, rfl⟩ := hprog
    exact pageFits_pageProgram e (Bool.and_eq_true_iff.mp hwf).2
  · refine pageFits_of_opcode p ?_
    rw [opcode_segmentsOf p hi e]
    cases i with
    | pageProgram a data => exact absurd ⟨a, data, rfl⟩ hprog
    | hostInit | hostRead | hostWrite | hostErase | hostChipErase => cases hi
    | _ => nofun

end Sys2Proof.Machine
end

section
/-! SUPPORT. R351 along the trace: what an event more does to it, and that every row of R25 keeps it. -/

namespace Sys2Proof.Machine

section
variable {s t : State}

theorem pagesFit_of_same (h : pagesFit s = true) (hst : SamePorts s t) : pagesFit t = true := by
  rw [pagesFit, hst.params, hst.trace]
  exact h

theorem pagesFit_of_event {e : Event} (h : pagesFit s = true) (hparams : t.params = s.params) (htrace : t.trace = s.trace ++ [e])
    (he : e.pageFits s.params = true) : pagesFit t = true := by
  rw [pagesFit, hparams, htrace, List.all_append, Bool.and_eq_true]
  exact ⟨h, by simpa using he⟩

/-- A well-formed wire command adds its one transaction, and the `Halt` if the poll halts. -/
theorem pagesFit_exec {i : Instr} (h : pagesFit s = true) (hi : isWire i = true) (hwf : i.WellFormed s.params = true)
    (he : exec i s = .next t) : pagesFit t = true := by
  obtain hend | ⟨-, rfl⟩ := WireEnd.of_exec hi he
  · have htxn : pagesFit (transaction (segmentsOf s.params i) s).st = true :=
      pagesFit_of_event h rfl rfl (pageFits_segmentsOf hi hwf _)
    obtain hsame | ⟨-, -, -, -, rfl⟩ := hend.samePorts
    · exact pagesFit_of_same htxn hsame
    · exact pagesFit_of_event htxn rfl rfl rfl
  · exact h

/-- Every row of R25 keeps the page programs in their pages: under the invariant the command of a phase is well-formed (R244). -/
theorem EngineInv.pagesFit_phaseStep (hinv : EngineInv s) (h : pagesFit s = true) (hst : PhaseStep s t) : pagesFit t = true := by
  cases hst with
  | call _ hc => rw [hinv.noCall] at hc; cases hc
  | issue hi he => exact pagesFit_exec h (issuedIn_of_phaseInstr hi).1 (hinv.phaseInstr_wellFormed hi) he
  | dispatch _ hd he => exact pagesFit_of_same h (exec_host_samePorts (isWire_of_decode_request hd) he)
  | wait | reserved | chunk => exact h
  | accept | sleep | respond => exact pagesFit_of_event h rfl rfl rfl
  | unit => exact pagesFit_of_same h (unitStep_samePorts s)
  | advance _ ha => exact pagesFit_of_same h (advanceStep_samePorts ha)

/-- With pages of 256 bytes the offset in the page is the last address byte (R65, R351). -/
theorem ofBe3_mod_256 (a2 a1 a0 : Byte) : (ofBe3 a2 a1 a0).toNat % 256 = a0.toNat := by
  rw [ofBe3, BitVec.toNat_append, Nat.shiftLeft_eq, Nat.mul_comm, ← Nat.two_pow_add_eq_or_of_lt a0.isLt]
  exact (Nat.mul_add_mod ..).trans (Nat.mod_eq_of_lt a0.isLt)

/-- R351 read off a trace under the default page size. -/
theorem pageProgram_in_page {a2 a1 a0 : Byte} {data : List Byte} {ok ok' : Bool} {rest : List Seg} (h : pagesFit s = true)
    (hsize : s.params.pageSize = 256)
    (hmem : Event.txn (.w [0x02, a2, a1, a0] ok :: .w data ok' :: rest) ∈ s.trace) : a0.toNat + data.length ≤ 256 := by
  have hfit : fitsPage s.params (ofBe3 a2 a1 a0) data = true := by
    simpa [Event.pageFits, Opcode.pageProgram] using List.all_eq_true.mp h _ hmem
  rwa [fitsPage_iff, hsize, ofBe3_mod_256] at hfit

end

end Sys2Proof.Machine
end

section
/-! SUPPORT. The handshake before a mutating transaction (R84, R350): the ready poll, the WriteEnable and the gate's read as events, how
far each phase has come, and that every row of R25 keeps both. -/

namespace Sys2Proof.Machine

/-! The three events of the handshake (R84). -/

section
variable {p : Params} {e : Env}

/-- A WriteEnable that succeeds is one write of its opcode (R177). -/
theorem enabled_of_writeEnable (hok : (runSegs (segmentsOf p .writeEnable) e).all Seg.ok = true) :
    Event.enabled (.txn (runSegs (segmentsOf p .writeEnable) e)) = true := by
  have hsegs : runSegs (segmentsOf p .writeEnable) e = [.w [0x06] true] :=
    runSegs_writes (ws := [[0x06]]) ((runSegs_all_ok_iff _ _).mp hok)
  rw [hsegs]
  rfl

/-- A status read that succeeds has received one byte (R175). -/
theorem runSegs_status_ok (hok : (runSegs (segmentsOf p .readStatusRegister1) e).all Seg.ok = true) :
    ∃ b, runSegs (segmentsOf p .readStatusRegister1) e = [.w [0x05] true, .r 1 [b] true] := by
  have hsegs : runSegs (segmentsOf p .readStatusRegister1) e = [.w [0x05] true, .r 1 (e.rxAt 1 1) true] :=
    runSegs_writes_read (ws := [[0x05]]) ((runSegs_all_ok_iff _ _).mp hok)
  obtain ⟨b, hb⟩ := List.length_eq_one_iff.mp (e.rxAt_length 1 1)
  exact ⟨b, hb ▸ hsegs⟩

/-- The poll that read BUSY = 0 (R203). -/
theorem readyPoll_of_status (hok : (runSegs (segmentsOf p .readStatusRegister1) e).all Seg.ok = true)
    (hb : busy (statusByte ((runSegs (segmentsOf p .readStatusRegister1) e).flatMap Seg.received)) = false) :
    Event.readyPoll (.txn (runSegs (segmentsOf p .readStatusRegister1) e)) = true := by
  obtain ⟨b, hsegs⟩ := runSegs_status_ok hok
  rw [hsegs] at hb ⊢
  have hbyte : busy b = false := hb
  simp [Event.readyPoll, Opcode.readStatusRegister1, hbyte]

/-- The gate's read that showed WEL = 1 (R211). -/
theorem gatePassed_of_status (hok : (runSegs (segmentsOf p .readStatusRegister1) e).all Seg.ok = true)
    (hw : wel (statusByte ((runSegs (segmentsOf p .readStatusRegister1) e).flatMap Seg.received)) = true) :
    Event.gatePassed (.txn (runSegs (segmentsOf p .readStatusRegister1) e)) = true := by
  obtain ⟨b, hsegs⟩ := runSegs_status_ok hok
  rw [hsegs] at hw ⊢
  have hbyte : wel b = true := hw
  simp [Event.gatePassed, Opcode.readStatusRegister1, hbyte]

end

/-! How far the handshake has come. -/

/-- The phases before which part of the handshake is done. -/
def Phase.inHandshake : Phase → Bool
  | .wren | .welchk | .mutate => true
  | _ => false

section
variable {s t : State} {e : Event}

theorem handshakeSoFar_of_phase (h : t.phase.inHandshake = false) : handshakeSoFar t = true := by
  unfold handshakeSoFar
  cases hp : t.phase <;> simp [hp, Phase.inHandshake] at h ⊢

/-- The handshake begins with the ready poll. -/
theorem handshakeSoFar_wren (ht : t.phase = .wren) (htrace : t.trace = s.trace ++ [e]) (he : e.readyPoll = true) :
    handshakeSoFar t = true := by
  simp [handshakeSoFar, ht, htrace, he]

theorem handshakeSoFar_welchk (h : handshakeSoFar s = true) (hp : s.phase = .wren) (ht : t.phase = .welchk)
    (htrace : t.trace = s.trace ++ [e]) (he : e.enabled = true) : handshakeSoFar t = true := by
  unfold handshakeSoFar at h ⊢
  rw [hp] at h
  rw [ht, htrace, List.reverse_concat]
  cases hs : s.trace.reverse with
  | nil => simp [hs] at h
  | cons p older => simpa [hs, he] using h

theorem handshakeSoFar_mutate (h : handshakeSoFar s = true) (hp : s.phase = .welchk) (ht : t.phase = .mutate)
    (htrace : t.trace = s.trace ++ [e]) (he : e.gatePassed = true) : handshakeSoFar t = true := by
  unfold handshakeSoFar at h ⊢
  rw [hp] at h
  rw [ht, htrace, List.reverse_concat]
  match hs : s.trace.reverse with
  | [] | [_] => simp [hs] at h
  | w :: p :: older => simpa [hs, he, guardedBy] using h

/-- In MUT the handshake is complete. -/
theorem guardedBy_of_handshakeSoFar (h : handshakeSoFar s = true) (hp : s.phase = .mutate) : guardedBy s.trace.reverse = true := by
  unfold handshakeSoFar at h
  rwa [hp] at h

/-- An event that is no mutating transaction, or has its guard right before it, keeps R350. -/
theorem mutationsGuarded_of_event (h : mutationsGuarded s = true) (htrace : t.trace = s.trace ++ [e])
    (he : e.mutating = true → guardedBy s.trace.reverse = true) : mutationsGuarded t = true := by
  rw [mutationsGuarded, htrace, List.reverse_concat, guarded, Bool.and_eq_true]
  refine ⟨?_, h⟩
  cases hm : e.mutating with
  | false => rfl
  | true => exact he hm

theorem mutationsGuarded_of_same (h : mutationsGuarded s = true) (htrace : t.trace = s.trace) : mutationsGuarded t = true := by
  rw [mutationsGuarded, htrace]
  exact h

/-! What each row of R25 does to it. -/

theorem unitStep_inHandshake (s : State) : (unitStep s).phase.inHandshake = false := by
  unfold unitStep
  split <;> rfl

theorem loopTo_inHandshake {p : Phase} (hp : p.inHandshake = false) (s : State) : (loopTo p s).phase.inHandshake = false := by
  unfold loopTo
  split
  · rfl
  · exact hp

theorem advanceStep_inHandshake (h : advanceStep s = .next t) : t.phase.inHandshake = false := by
  unfold advanceStep at h
  split_ifs at h <;> cases h
  · exact loopTo_inHandshake rfl _
  · exact loopTo_inHandshake rfl _
  · rfl

/-- CHECK enters a procedure before its handshake, or RESP. -/
theorem exec_host_inHandshake {i : Instr} (hi : isWire i = false) (h : exec i s = .next t) : t.phase.inHandshake = false := by
  cases i
  case hostInit | hostChipErase => cases h; rfl
  case hostRead => simp only [exec, execHostRead] at h; split_ifs at h <;> cases h <;> rfl
  case hostWrite => simp only [exec, execHostWrite] at h; split_ifs at h <;> cases h <;> rfl
  case hostErase => simp only [exec, execHostErase] at h; split_ifs at h <;> cases h <;> rfl
  all_goals cases hi

/-- R350 for the trace so far, and the handshake as far as the phase needs it. -/
structure GuardKept (s : State) : Prop where
  guarded : mutationsGuarded s = true
  handshake : handshakeSoFar s = true

/-- A step without an event to a phase outside the handshake. -/
theorem GuardKept.of_quiet (h : GuardKept s) (htrace : t.trace = s.trace) (hp : t.phase.inHandshake = false) : GuardKept t :=
  ⟨mutationsGuarded_of_same h.guarded htrace, handshakeSoFar_of_phase hp⟩

/-- A step with an event that is no mutating transaction, to a phase outside the handshake. -/
theorem GuardKept.of_event (h : GuardKept s) (htrace : t.trace = s.trace ++ [e]) (he : e.mutating = false)
    (hp : t.phase.inHandshake = false) : GuardKept t :=
  ⟨mutationsGuarded_of_event h.guarded htrace (by simp [he]), handshakeSoFar_of_phase hp⟩

/-- The transaction of a phase's command has its guard right before it if it is mutating: only MUT issues such a command (R85). -/
theorem GuardKept.guarded_transaction {i : Instr} (h : GuardKept s) (hi : isWire i = true) (hissued : issuedIn i s.phase = true) :
    mutationsGuarded (transaction (segmentsOf s.params i) s).st = true := by
  refine mutationsGuarded_of_event h.guarded rfl fun hm => ?_
  rw [mutating_segmentsOf _ hi] at hm
  exact guardedBy_of_handshakeSoFar h.handshake (eq_mutate_of_issuedIn hm hissued)

/-- A phase's command moves the handshake on by its event, or leaves it (R25, R84). -/
theorem WireEnd.handshake {i : Instr} (hend : WireEnd i (transaction (segmentsOf s.params i) s) t) (h : handshakeSoFar s = true)
    (hissued : issuedIn i s.phase = true) : handshakeSoFar t = true := by
  cases hend with
  | pollReady hi hp hok hb =>
    subst hi
    cases hc : s.regs.cont with
    | wren => exact handshakeSoFar_wren (s := s) (congrArg contPhase hc) rfl (readyPoll_of_status hok hb)
    | rsten => exact handshakeSoFar_of_phase (congrArg (Phase.inHandshake ∘ contPhase) hc)
  | enabled hi hp hok => subst hi; exact handshakeSoFar_welchk h hp rfl rfl (enabled_of_writeEnable hok)
  | gatePassed hi hp hok hw => subst hi; exact handshakeSoFar_mutate h hp rfl rfl (gatePassed_of_status hok hw)
  | returned _ hnot => cases hnot.symm.trans hissued
  | _ => exact handshakeSoFar_of_phase rfl

/-- A wire command issued in its phase keeps both. -/
theorem GuardKept.exec_wire {i : Instr} (h : GuardKept s) (hi : isWire i = true) (hissued : issuedIn i s.phase = true)
    (he : exec i s = .next t) : GuardKept t := by
  obtain hend | ⟨-, rfl⟩ := WireEnd.of_exec hi he
  · refine ⟨?_, hend.handshake h.handshake hissued⟩
    have htxn := h.guarded_transaction hi hissued
    obtain hsame | ⟨-, -, -, -, rfl⟩ := hend.samePorts
    · exact mutationsGuarded_of_same htxn hsame.trace
    · exact mutationsGuarded_of_event htxn rfl nofun
  · exact h.of_quiet rfl rfl

/-- Every row of R25 keeps both. -/
theorem GuardKept.phaseStep (h : GuardKept s) (hcall : s.call = none) (hst : PhaseStep s t) : GuardKept t := by
  cases hst with
  | call _ hc => rw [hcall] at hc; cases hc
  | wait => exact h
  | issue hi he => exact h.exec_wire (issuedIn_of_phaseInstr hi).1 (issuedIn_of_phaseInstr hi).2 he
  | dispatch _ hd he =>
    have hi := isWire_of_decode_request hd
    exact h.of_quiet (exec_host_samePorts hi he).trace (exec_host_inHandshake hi he)
  | reserved | chunk => exact h.of_quiet rfl rfl
  | accept | sleep | respond => exact h.of_event rfl rfl rfl
  | unit => exact h.of_quiet (unitStep_samePorts s).trace (unitStep_inHandshake s)
  | advance _ ha => exact h.of_quiet (advanceStep_samePorts ha).trace (advanceStep_inHandshake ha)

end

end Sys2Proof.Machine
end

section
open Sys2Proof Sys2Proof.Machine

/-- Settles O47: engine reset empties the trace in IDLE; else a mutating transaction is issued in MUT only, where the handshake that
the phases before it have made is complete. -/
theorem stepKeepsMutationsGuarded : Obligations.StepKeepsMutationsGuarded := by
  intro s t hinv hguarded hsofar hstep
  cases hr : s.env.resetIn with
  | true => rw [step_resetIn hr] at hstep; cases hstep; exact ⟨rfl, rfl⟩
  | false =>
    obtain ⟨hguarded', hsofar'⟩ := GuardKept.phaseStep ⟨hguarded, hsofar⟩ hinv.noCall (.of_step hr hstep)
    exact ⟨hguarded', hsofar'⟩

/-- Settles O48: engine reset empties the trace; else a PageProgram is well-formed under the invariant, and with pages of 256 bytes its
last address byte is its offset in the page. -/
theorem stepKeepsPagesFit : Obligations.StepKeepsPagesFit := by
  intro s t hinv h hstep
  have hfit : pagesFit t = true := by
    cases hr : s.env.resetIn with
    | true => rw [step_resetIn hr] at hstep; cases hstep; rfl
    | false => exact hinv.pagesFit_phaseStep h (.of_step hr hstep)
  exact ⟨hfit, fun hsize _ _ _ _ _ _ _ hmem => pageProgram_in_page hfit hsize hmem⟩

/-- Settles O11: the step of engine reset is `engineReset`, whatever the phase. -/
theorem engineResetEffect : Obligations.EngineResetEffect := fun s hr =>
  ⟨engineReset s, step_resetIn hr, rfl, rfl, rfl, rfl, rfl, rfl, rfl, rfl, rfl⟩

end
